-- ==== Sys2Proof/Word.lean ====
section
/-! DEFINITION. The widths of the block's registers and ports (spec/00_scope.md R7, spec/10_state.md R21 to R33,
spec/30_encoding.md R80). Bit 0 is the least significant bit of each (R9). -/

namespace Sys2Proof

/-- A speed register, 10-bit two's complement (R21, R22); `BitVec.toInt` is R9's reading of it as an integer. -/
abbrev Speed := BitVec 10

/-- A duty output, 9-bit unsigned (R27, R28). -/
abbrev Duty := BitVec 9

/-- The millisecond delay counter, 11-bit unsigned (R25). -/
abbrev DelayCount := BitVec 11

/-- The opcode field of a command, port `cmd_op` (R31, R80). -/
abbrev OpField := BitVec 2

/-- The speed operand field of a command, port `cmd_speed` (R31, R80). -/
abbrev SpeedField := BitVec 16

/-- A command word, `cmd_op` in bits 17:16 and `cmd_speed` in bits 15:0 (R80). -/
abbrev CmdWord := BitVec 18

/-- The direction code, port `dir_out` (R33, R185). -/
abbrev DirCode := BitVec 2

end Sys2Proof
end

