-- ==== Sys2Proof/Syntax.lean ====
section
/-! DEFINITION. The rows of spec/opcode_table.json: four commands of format CMD18 and the two accessor ports
(spec/30_encoding.md R82, R84). -/

namespace Sys2Proof

/-- One constructor per row of the opcode table. A command that ignores `cmd_speed` carries no operand (R81: "for them
the field is ignored and any value is legal"). -/
inductive Instr where
  /-- `NOP`, op 00 (R104). -/
  | nop
  /-- `SET_TARGET`, op 01; the operand is the 16-bit speed field as it stands on `cmd_speed` (R81, R120). -/
  | setTarget (speed : SpeedField)
  /-- `STOP`, op 10 (R150). -/
  | stop
  /-- `RSVD`, op 11, the reserved encoding (R83, R105). -/
  | rsvd
  /-- `CURRENT_SPEED`, the accessor port `speed_out`; no command word (R84, R184). -/
  | currentSpeed
  /-- `CURRENT_DIRECTION`, the accessor port `dir_out`; no command word (R84, R185). -/
  | currentDirection
deriving DecidableEq, Repr

end Sys2Proof
end

