-- ==== Sys2Proof/WellFormed.lean ====
section
/-! DEFINITION. Which terms of `Instr` are commands (have a word: spec/30_encoding.md R82, R84) and which a command
program may hold (R83, R85). Every operand value is legal (R81). -/

namespace Sys2Proof

/-- The instruction has a command word. The accessors have none (R84). -/
def Instr.isCommand : Instr → Bool
  | .nop => true
  | .setTarget _ => true
  | .stop => true
  | .rsvd => true
  | .currentSpeed => false
  | .currentDirection => false

/-- Well-formed: it is one of the words the command port can carry. This is the premise under which decoding an encoding
gives the instruction back. -/
def Instr.wellFormed (i : Instr) : Bool := i.isCommand

/-- What a command program may hold: a command that is not the reserved one. R85: an assembler "refuses `RSVD`"; R83: "a
model should refuse a program that issues it". The MACHINE runs `RSVD` as R105 says (log entry 6). -/
def Instr.allowedInProgram : Instr → Bool
  | .rsvd => false
  | i => i.isCommand

end Sys2Proof
end

