-- ==== Sys2Proof/Decode.lean ====
section
/-! DEFINITION. The command decoder and, after it, the encoder, both from the tables of spec/30_encoding.md (R80, R81,
R82). -/

namespace Sys2Proof

/-- `word[17:16]`, the opcode (R80). -/
def opField (w : CmdWord) : OpField := w.extractLsb' 16 2

/-- `word[15:0]`, the speed operand (R80). -/
def speedField (w : CmdWord) : SpeedField := w.extractLsb' 0 16

/-- The command word `{cmd_op, cmd_speed}` (R80). -/
def cmdWord (op : OpField) (speed : SpeedField) : CmdWord := op ++ speed

/-- The decoder: total, by `op` alone (R80, R82). It never gives an accessor, which has no encoding (R84). -/
def decode (w : CmdWord) : Instr :=
  if opField w = 0b00#2 then .nop
  else if opField w = 0b01#2 then .setTarget (speedField w)
  else if opField w = 0b10#2 then .stop
  else .rsvd

/-- Why a string of bits is no command word. -/
inductive DecodeError where
  /-- Fewer than 18 bits: "Every command has exactly this length" (R80). -/
  | shorterThanCommand
  /-- A bit above bit 17 is set: there is "no second word" (R80). -/
  | longerThanCommand
deriving DecidableEq, Repr

/-- The decoder on any string of bits: `nbits` bits with the value `w`, bit 0 the least significant. -/
def decodeBits (nbits w : Nat) : Except DecodeError Instr :=
  if nbits < 18 then .error .shorterThanCommand
  else if 2 ^ 18 ≤ w % 2 ^ nbits then .error .longerThanCommand
  else .ok (decode (BitVec.ofNat 18 (w % 2 ^ nbits)))

/-- What the decoder reads from a word numbered as spec/opcode_table.json numbers it. The command word is one parallel
value of 18 bits, never split into bytes (R61), so bit k of `w` is bit k of the word. A row of the table with fewer than 18
bits is an accessor port, which has no encoding (R84): none. -/
def decodeTableWord (nbits w : Nat) : Option Instr :=
  match decodeBits nbits w with
  | .ok i => some i
  | .error _ => none

/-- The opcode R82 gives a command; the accessors have none (R84). -/
def Instr.opcode? : Instr → Option OpField
  | .nop => some 0b00#2
  | .setTarget _ => some 0b01#2
  | .stop => some 0b10#2
  | .rsvd => some 0b11#2
  | .currentSpeed => none
  | .currentDirection => none

/-- The operand field of a command's canonical word: the speed of `SET_TARGET`, zero where it is ignored (R87). -/
def Instr.operandField : Instr → SpeedField
  | .setTarget speed => speed
  | .nop => 0
  | .stop => 0
  | .rsvd => 0
  | .currentSpeed => 0
  | .currentDirection => 0

/-- The encoder: the canonical word of a command (R82, R87), none for an accessor (R84). -/
def encode (i : Instr) : Option CmdWord :=
  match i.opcode? with
  | some op => some (cmdWord op i.operandField)
  | none => none

end Sys2Proof
end

