-- ==== Sys2Proof/Config.lean ====
section
/-! DEFINITION. What an implementation fixes (spec/00_scope.md R6 to R8), the input ports (spec/10_state.md R31), and the
free values: the OPEN parameters and the inputs that nothing in the spec determines. The opaque constants have no body, so
no proof can rest on a value of one. -/

namespace Sys2Proof

/-- The two builds' `MAX_SPEED` (R6, R8: `MAX_SPEED ∈ {255, 256}`). -/
inductive MaxSpeed where
  | speed255
  | speed256
deriving DecidableEq, Repr, Inhabited

/-- A LEGAL configuration: the fields range over exactly the parameter choices R8 admits, so an illegal one cannot be
written down (Machine/Params.lean refuses it by name: `Params.elaborate`). -/
structure Config where
  /-- `MAX_SPEED`. -/
  maxSpeedBuild : MaxSpeed
  /-- `REVERSE_BRAKE_MS - 1000`, so that the pause lies in 1000..2000. -/
  brakeOver1000 : Fin 1001
  /-- `CLK_PER_MS - 1`, so that `CLK_PER_MS ≥ 1`. -/
  clkPerMsPred : Nat
  /-- `PWM_FREQ_HZ`; no rule of the block depends on it (93_implementation_defined.md). DESIGN CHOICE: R6 gives it no domain
  (only OPEN), and the model takes any natural number, 0 included (log entry 12). -/
  pwmFreqHz : Nat
  /-- `PWM_RES_BITS` beyond the least number of bits that holds `MAX_SPEED` (8 for 255, 9 for 256). -/
  pwmResSpare : Nat
deriving DecidableEq, Repr, Inhabited

/-- The values the input ports have at one rising edge (R31). -/
structure Inputs where
  /-- `rst`. -/
  rst : Bool
  /-- `cmd_valid`. -/
  cmdValid : Bool
  /-- `cmd_op`. -/
  cmdOp : OpField
  /-- `cmd_speed`. -/
  cmdSpeed : SpeedField
  /-- `pwm_err`. -/
  pwmErr : Bool
deriving DecidableEq, Repr, Inhabited

/-- One thing the environment does: a rising edge of `clk` with the inputs sampled at it, or an accessor call of the host,
which takes no edge and no handshake (R84). -/
inductive EnvEvent where
  /-- A rising edge of `clk`. -/
  | edge (inp : Inputs)
  /-- The host reads the port `speed_out` (R184). -/
  | readSpeed
  /-- The host reads the port `dir_out` (R185). -/
  | readDirection
deriving DecidableEq, Repr, Inhabited

/-- Free value, one per draw: what the environment does when nothing has been placed (93_implementation_defined.md: host
arrival times and the rise of `pwm_err` are "any value"; log entry 4). -/
opaque Config.freeEvent : Nat → EnvEvent

/-- Free value: the configuration of the build, one of the legal ones, not known which (92_eei_decisions.md D4, D15, D16,
D18: OPEN; log entry 1). -/
opaque Config.build : Config

end Sys2Proof
end

