-- ==== Sys2Proof/Machine/State.lean ====
section
/-! DEFINITION. The block's registers (spec/10_state.md R20 to R30), its configuration, and the environment's own fields,
as plain data; the state after reset (R40). -/

namespace Sys2Proof.Machine

/-- The sequencer state, a 3-bit register whose eight values all have a name (R23). -/
inductive SeqState where
  /-- 0, `IDLE`: ready for a command. -/
  | idle
  /-- 1, `REV_STEP`: one step of the reversal ramp. -/
  | revStep
  /-- 2, `REV_WAIT`: the delay after a reversal step. -/
  | revWait
  /-- 3, `STOP`: the zero-write of a stop. -/
  | stop
  /-- 4, `BRAKE_WAIT`: the brake pause. -/
  | brakeWait
  /-- 5, `RAMP_STEP`: one step toward the target, or the final write. -/
  | rampStep
  /-- 6, `RAMP_WAIT`: the delay after a ramp step. -/
  | rampWait
  /-- 7, `FAULT`: dead until reset. -/
  | fault
deriving DecidableEq, Repr

/-- What an accessor call returned to the host (R184, R185). -/
inductive PortRead where
  /-- The value of `speed_out`. -/
  | speed (v : Speed)
  /-- The value of `dir_out`. -/
  | direction (d : DirCode)
deriving DecidableEq, Repr

/-- The machine never stops with a fault: the block's one fault, `PWM_BACKEND`, is the sequencer state `FAULT`, a next
state (60_exceptions.md R202). So there is no constructor, nobody raises one, and nothing safe or unsafe hangs on it. -/
inductive Fault
deriving DecidableEq, Repr

/-- Why an instruction gets no meaning. -/
inductive Refusal where
  /-- Raised only by an arm of `exec` whose instruction has no meaning yet; no arm is such a one now. Safe: the machine
  stops where the hardware would go on. -/
  | notModelled (mnemonic : String)
deriving DecidableEq, Repr

/-- The state: ten registers, the configuration they were built with, and the environment. -/
structure State where
  /-- The elaboration parameters; no step changes them (00_scope.md R6). -/
  cfg : Config
  /-- `cur_speed` (R21). -/
  curSpeed : Speed
  /-- `tgt_speed` (R22). -/
  tgtSpeed : Speed
  /-- `state` (R23). -/
  state : SeqState
  /-- `resume` (R24). -/
  resume : Bool
  /-- `dly_cnt` (R25). -/
  dlyCnt : DelayCount
  /-- `presc` (R26); a number that wraps at the width the configuration gives it (log entry 3). -/
  presc : Nat
  /-- `duty_a` (R27). -/
  dutyA : Duty
  /-- `duty_b` (R28). -/
  dutyB : Duty
  /-- `pwm_wr` (R29). -/
  pwmWr : Bool
  /-- `fault` (R30). -/
  fault : Bool
  /-- The model's own: what the environment does next, the first event first; after the last one the events are free
  values (log entry 4). -/
  pending : List EnvEvent
  /-- The model's own: how many free events have been drawn (log entry 4). -/
  freeDraws : Nat
  /-- The model's own: what the host's last accessor call returned; no rule reads it (log entry 5). -/
  hostResult : Option PortRead
deriving DecidableEq, Repr

/-- The machine after an edge with `rst = 1`: every register as R40 says, in a build nobody has fixed, with nothing placed
on the input ports. -/
def State.reset : State where
  cfg := Config.build
  curSpeed := 0
  tgtSpeed := 0
  state := .stop
  resume := false
  dlyCnt := 0
  presc := 0
  dutyA := 0
  dutyB := 0
  pwmWr := false
  fault := false
  pending := []
  freeDraws := 0
  hostResult := none

end Sys2Proof.Machine
end

