-- ==== Sys2Proof/Machine/Params.lean ====
section
/-! DEFINITION. The implementation parameters: their values in a configuration, the widths and edge counts they give, and
the elaboration check that refuses an illegal choice (spec/00_scope.md R6 to R8). -/

namespace Sys2Proof

/-- A choice of the six parameters of R6, legal or not. -/
structure Params where
  /-- `MAX_SPEED`. -/
  maxSpeed : Nat
  /-- `RAMP_STEP_DELAY_MS`. -/
  rampStepDelayMs : Nat
  /-- `REVERSE_BRAKE_MS`. -/
  reverseBrakeMs : Nat
  /-- `CLK_PER_MS`. -/
  clkPerMs : Nat
  /-- `PWM_FREQ_HZ`, any natural number (DESIGN CHOICE, log entry 12). -/
  pwmFreqHz : Nat
  /-- `PWM_RES_BITS`. -/
  pwmResBits : Nat
deriving DecidableEq, Repr

/-- `MAX_SPEED` as a number. -/
def MaxSpeed.value : MaxSpeed → Nat
  | .speed255 => 255
  | .speed256 => 256

/-- The fewest PWM resolution bits that hold `MAX_SPEED` (R8, 70_reset_and_hazards.md R245). -/
def MaxSpeed.minResBits : MaxSpeed → Nat
  | .speed255 => 8
  | .speed256 => 9

/-- `MAX_SPEED` (R6). -/
def Config.maxSpeed (c : Config) : Nat := c.maxSpeedBuild.value

/-- `RAMP_STEP_DELAY_MS`, 40 by R6 and R8 (log entry 2). -/
def Config.rampStepDelayMs (_ : Config) : Nat := 40

/-- `REVERSE_BRAKE_MS` (R6). -/
def Config.reverseBrakeMs (c : Config) : Nat := 1000 + c.brakeOver1000.val

/-- `CLK_PER_MS` (R6). -/
def Config.clkPerMs (c : Config) : Nat := c.clkPerMsPred + 1

/-- `PWM_RES_BITS` (R6). -/
def Config.pwmResBits (c : Config) : Nat := c.maxSpeedBuild.minResBits + c.pwmResSpare

/-- The parameters a configuration stands for. -/
def Config.params (c : Config) : Params where
  maxSpeed := c.maxSpeed
  rampStepDelayMs := c.rampStepDelayMs
  reverseBrakeMs := c.reverseBrakeMs
  clkPerMs := c.clkPerMs
  pwmFreqHz := c.pwmFreqHz
  pwmResBits := c.pwmResBits

/-- The least `k` with `n ≤ 2^k`: `⌈log2 n⌉` for `n ≥ 1`. -/
def ceilLog2 (n : Nat) : Nat := if n ≤ 1 then 0 else Nat.log2 (n - 1) + 1

/-- The width of `presc`: `max(1, ⌈log2(CLK_PER_MS)⌉)` bits (10_state.md R26). -/
def Config.prescWidth (c : Config) : Nat := max 1 (ceilLog2 c.clkPerMs)

/-- `P`: the edges from one step write to the next (41_set_target.md, shorthand). -/
def Config.stepPeriod (c : Config) : Nat := 1 + c.rampStepDelayMs * c.clkPerMs

/-- `Bk`: the edges of the brake pause (41_set_target.md, shorthand). -/
def Config.brakeEdges (c : Config) : Nat := c.reverseBrakeMs * c.clkPerMs

/-- Which condition of R8 a choice of parameters breaks. -/
inductive ParamError where
  | maxSpeed
  | rampStepDelay
  | reverseBrake
  | clkPerMs
  | pwmResolution
deriving DecidableEq, Repr

/-- R8's conditions together. -/
def Params.legal (p : Params) : Bool :=
  (p.maxSpeed = 255 ∨ p.maxSpeed = 256) ∧ 1000 ≤ p.reverseBrakeMs ∧ p.reverseBrakeMs ≤ 2000 ∧ p.rampStepDelayMs = 40 ∧
    1 ≤ p.clkPerMs ∧ p.maxSpeed ≤ 2 ^ p.pwmResBits - 1

/-- The build of a `MAX_SPEED` value, if it has one. -/
def MaxSpeed.ofValue (n : Nat) : Option MaxSpeed :=
  if n = 255 then some .speed255 else if n = 256 then some .speed256 else none

/-- Elaboration: the configuration of a legal choice of parameters; an illegal one is refused by the first condition of R8
it breaks. It also refuses a delay outside 1..2047 (R7), which R8 excludes. -/
def Params.elaborate (p : Params) : Except ParamError Config :=
  match MaxSpeed.ofValue p.maxSpeed with
  | none => .error .maxSpeed
  | some m =>
    if p.rampStepDelayMs ≠ 40 then .error .rampStepDelay
    else if h : 1000 ≤ p.reverseBrakeMs ∧ p.reverseBrakeMs ≤ 2000 then
      if p.clkPerMs = 0 then .error .clkPerMs
      else if p.pwmResBits < m.minResBits then .error .pwmResolution
      else .ok {
        maxSpeedBuild := m
        brakeOver1000 := ⟨p.reverseBrakeMs - 1000, by omega⟩
        clkPerMsPred := p.clkPerMs - 1
        pwmFreqHz := p.pwmFreqHz
        pwmResSpare := p.pwmResBits - m.minResBits }
    else .error .reverseBrake

end Sys2Proof
end

