-- ==== Sys2Proof/Machine/Operands.lean ====
section
/-! DEFINITION. The operand of `SET_TARGET` and the comparators that judge it (spec/30_encoding.md R81,
spec/00_scope.md R11, spec/41_set_target.md R122, R123, R132). All arithmetic is on integers (R9). -/

namespace Sys2Proof.Machine

/-- `requested = sext_16(cmd_speed)` (R81). -/
def requested (speed : SpeedField) : Int := speed.toInt

/-- `clamp(v) = max(-MAX_SPEED, min(MAX_SPEED, v))` (R11, R122). -/
def clamp (c : Config) (v : Int) : Int := max (-(c.maxSpeed : Int)) (min (c.maxSpeed : Int) v)

/-- `sgn(v)` (R11). -/
def sgn (v : Int) : Int := if 0 < v then 1 else if v < 0 then -1 else 0

/-- The reversal comparator: strictly opposite non-zero signs (R123). It compares signs and forms no product. -/
def reversal (c t : Int) : Bool := (0 < c && t < 0) || (c < 0 && 0 < t)

/-- The step direction of the target comparator: +1 when `lt`, else -1 (R132). -/
def stepDirection (cur tgt : Int) : Int := if cur < tgt then 1 else -1

end Sys2Proof.Machine
end

