-- ==== Sys2Proof/Machine/Flags.lean ====
section
/-! DEFINITION. The status outputs and the other output ports: pure functions of registers, never of inputs
(spec/10_state.md R33, R36; spec/43_outputs.md R184 to R186; spec/40_command_interface.md R101), and the source's state
machine read off the registers (R190). -/

namespace Sys2Proof.Machine

/-- The 3-bit encoding of the `state` register (10_state.md R23). -/
def SeqState.code : SeqState → BitVec 3
  | .idle => 0
  | .revStep => 1
  | .revWait => 2
  | .stop => 3
  | .brakeWait => 4
  | .rampStep => 5
  | .rampWait => 6
  | .fault => 7

/-- `cur_speed` as an integer (R9). -/
def State.speed (s : State) : Int := s.curSpeed.toInt

/-- `tgt_speed` as an integer (R9). -/
def State.target (s : State) : Int := s.tgtSpeed.toInt

/-- Port `cmd_ready = (state = IDLE)` (R101). -/
def State.cmdReady (s : State) : Bool := decide (s.state = .idle)

/-- Port `busy = (state ≠ IDLE) ∧ (state ≠ FAULT)` (R186). -/
def State.busy (s : State) : Bool := decide (s.state ≠ .idle) && decide (s.state ≠ .fault)

/-- Port `speed_out = cur_speed` (R184). -/
def State.speedOut (s : State) : Speed := s.curSpeed

/-- The direction code of a speed: 01 Forward, 10 Reverse, 00 Stopped (R185). -/
def dirCode (v : Int) : DirCode := if 0 < v then 0b01#2 else if v < 0 then 0b10#2 else 0b00#2

/-- Port `dir_out`, the direction code of `cur_speed`, derived and never stored (R36, R185). -/
def State.dirOut (s : State) : DirCode := dirCode s.speed

/-- The handshake at an edge: `cmd_valid = 1` and `cmd_ready = 1` (R101). It counts as done for the host even when `rst`
or `pwm_err` takes the edge (R102). -/
def State.handshake (s : State) (inp : Inputs) : Bool := inp.cmdValid && s.cmdReady

/-- The states of the source's state machine summary, with the two conditions it does not name (R190). -/
inductive SourceState where
  | stopped
  | running (v : Int)
  | ramping
  | stopOrBrakePause
  | hardwareFault
deriving DecidableEq, Repr

/-- R190's table. -/
def State.sourceState (s : State) : SourceState :=
  match s.state with
  | .idle => if s.speed = 0 then .stopped else .running s.speed
  | .revStep => .ramping
  | .revWait => .ramping
  | .rampStep => .ramping
  | .rampWait => .ramping
  | .stop => .stopOrBrakePause
  | .brakeWait => .stopOrBrakePause
  | .fault => .hardwareFault

end Sys2Proof.Machine
end

