-- ==== Sys2Proof/Machine/Ops.lean ====
section
/-! DEFINITION. The named operations on the registers that every arm is written with (spec/00_scope.md R11): the speed
write, the projection, the delay timer, fault entry and reset; and the operations on the environment's fields. The block
has no memory (spec/20_memory.md R60), so there is no memory operation. -/

namespace Sys2Proof.Machine

/-- `state <- S` (R11). -/
def State.goto (s : State) (q : SeqState) : State := { s with state := q }

/-- `cur_speed <- v`, in the register's 10 bits (R21). -/
def State.setSpeed (s : State) (v : Int) : State := { s with curSpeed := BitVec.ofInt 10 v }

/-- `tgt_speed <- v` in the register's 10 bits and `resume <- r`, the writes of an acceptance edge (R22, R24). -/
def State.latchTarget (s : State) (v : Int) (r : Bool) : State := { s with tgtSpeed := BitVec.ofInt 10 v, resume := r }

/-- `emit(v)`, the hardware projection (43_outputs.md R180): each duty in its port's 9 bits. -/
def State.emit (s : State) (v : Int) : State :=
  { s with dutyA := BitVec.ofInt 9 (max v 0), dutyB := BitVec.ofInt 9 (max (-v) 0), pwmWr := true }

/-- `pwm_wr <- 0`, the default of an edge that runs an arm (40_command_interface.md R100). -/
def State.clearStrobe (s : State) : State := { s with pwmWr := false }

/-- `delay_load(n)` (42_stop_and_brake.md R156). -/
def State.delayLoad (s : State) (n : Nat) : State := { s with dlyCnt := BitVec.ofNat 11 n, presc := 0 }

/-- What `tick()` returns: `done` (R157), from the values before the edge. -/
def State.tickDone (s : State) : Bool := decide (s.presc = s.cfg.clkPerMs - 1) && decide (s.dlyCnt = 1#11)

/-- What `tick()` writes (R157). The increment stays in the register's width (log entry 3). -/
def State.tick (s : State) : State :=
  if s.presc = s.cfg.clkPerMs - 1 then { s with presc := 0, dlyCnt := s.dlyCnt - 1#11 }
  else { s with presc := (s.presc + 1) % 2 ^ s.cfg.prescWidth }

/-- `raise Fault(PWM_BACKEND)`, the one exception entry: nothing is saved, no mode changes and there is no vector
(60_exceptions.md R202, R207). -/
def State.raiseFault (s : State) : State := { s with state := .fault, fault := true, pwmWr := false }

/-- An edge with `rst = 1`: every register takes its reset value (10_state.md R40, 70_reset_and_hazards.md R230). It is also
the only way out of `FAULT` (60_exceptions.md R207). The configuration and the environment are not registers. -/
def State.resetRegs (s : State) : State :=
  { s with
    curSpeed := 0, tgtSpeed := 0, state := .stop, resume := false, dlyCnt := 0, presc := 0, dutyA := 0, dutyB := 0,
    pwmWr := false, fault := false }

/-- The host takes the value an accessor call returned. -/
def State.giveHost (s : State) (r : PortRead) : State := { s with hostResult := some r }

/-- What the environment does next: the first placed event, or a free value when nothing is placed (log entry 4). -/
def State.nextEvent (s : State) : EnvEvent :=
  match s.pending with
  | e :: _ => e
  | [] => Config.freeEvent s.freeDraws

/-- The environment after its next event. -/
def State.popEvent (s : State) : State :=
  match s.pending with
  | _ :: rest => { s with pending := rest }
  | [] => { s with freeDraws := s.freeDraws + 1 }

/-- The command word on the port at an edge (30_encoding.md R80). -/
def wordOf (inp : Inputs) : CmdWord := cmdWord inp.cmdOp inp.cmdSpeed

/-- An edge at which nothing is asserted: no reset, no command, no backend error. -/
def quietInputs : Inputs where
  rst := false
  cmdValid := false
  cmdOp := 0
  cmdSpeed := 0
  pwmErr := false

/-- An edge at which the host offers the command word `w`, with no reset and no backend error. -/
def offerInputs (w : CmdWord) : Inputs := { quietInputs with cmdValid := true, cmdOp := opField w, cmdSpeed := speedField w }

/-- Place an event before the ones already placed. -/
def State.place (s : State) (e : EnvEvent) : State := { s with pending := e :: s.pending }

/-- Put the block in `IDLE` with the word `w` on offer at the next edge: all that the next step needs to accept and run
it (R101). -/
def State.offerInIdle (s : State) (w : CmdWord) : State := (s.goto .idle).place (.edge (offerInputs w))

end Sys2Proof.Machine
end

