-- ==== Sys2Proof/Machine/Accessors.lean ====
section
/-! DEFINITION. The accessors `currentSpeed()` and `currentDirection()` (spec/43_outputs.md R184, R185): the host reads an
output port. It takes no edge and no handshake, is valid in every state, and changes no register (spec/30_encoding.md
R84). -/

namespace Sys2Proof.Machine

/-- `CURRENT_SPEED`: the host gets `speed_out` (R184). -/
def execCurrentSpeed (s : State) : Host.Outcome State Fault Refusal := .next (s.giveHost (.speed s.speedOut))

/-- `CURRENT_DIRECTION`: the host gets `dir_out` (R185). -/
def execCurrentDirection (s : State) : Host.Outcome State Fault Refusal := .next (s.giveHost (.direction s.dirOut))

end Sys2Proof.Machine
end

