-- ==== Sys2Proof/Machine/Brake.lean ====
section
/-! DEFINITION. The sequencer arms `STOP` and `BRAKE_WAIT`, shared by `STOP`, by the reversal inside `SET_TARGET` and by
the reset sequence (spec/42_stop_and_brake.md R152, R158). -/

namespace Sys2Proof.Machine

/-- `arm_STOP` (R152). -/
def armStop (s : State) : State := (((s.setSpeed 0).emit 0).delayLoad s.cfg.reverseBrakeMs).goto .brakeWait

/-- `arm_BRAKE_WAIT` (R158). -/
def armBrakeWait (s : State) : State :=
  if s.tickDone then (if s.resume then s.tick.goto .rampStep else s.tick.goto .idle) else s.tick

end Sys2Proof.Machine
end

