-- ==== Sys2Proof/Machine/Ramp.lean ====
section
/-! DEFINITION. The sequencer arms of the two ramps: `REV_STEP`, `REV_WAIT`, `RAMP_STEP`, `RAMP_WAIT`
(spec/41_set_target.md R126, R127, R130 to R133). -/

namespace Sys2Proof.Machine

/-- `cur_speed <- n; emit(n); delay_load(RAMP_STEP_DELAY_MS); state <- q`: one step of either ramp (R126, R131). -/
def State.rampWrite (s : State) (n : Int) (q : SeqState) : State :=
  (((s.setSpeed n).emit n).delayLoad s.cfg.rampStepDelayMs).goto q

/-- `arm_REV_STEP` (R126). -/
def armRevStep (s : State) : State := s.rampWrite (s.speed - sgn s.speed) .revWait

/-- `arm_REV_WAIT` (R127). -/
def armRevWait (s : State) : State :=
  if s.tickDone then (if s.speed = 0 then s.tick.goto .stop else s.tick.goto .revStep) else s.tick

/-- `arm_RAMP_STEP`: the final write when the target is reached (R130), else one step toward it (R131). -/
def armRampStep (s : State) : State :=
  if s.speed = s.target then (s.emit s.speed).goto .idle
  else s.rampWrite (s.speed + stepDirection s.speed s.target) .rampWait

/-- `arm_RAMP_WAIT` (R133). -/
def armRampWait (s : State) : State := if s.tickDone then s.tick.goto .rampStep else s.tick

end Sys2Proof.Machine
end

