-- ==== Sys2Proof/Machine/Sequencer.lean ====
section
/-! DEFINITION. The arm of an edge with `rst = 0` that no fault takes (spec/40_command_interface.md R100, R103), with the
acceptance action of the command on offer as its argument. -/

namespace Sys2Proof.Machine

/-- `arm_FAULT`: nothing changes except `pwm_wr <- 0`, which the edge's default has done (60_exceptions.md R203). -/
def armFault (s : State) : State := s

/-- R100's last branch: `pwm_wr <- 0`, then the arm of `state`. `accept` is what the offered command does when it is
accepted, and nothing when no command is offered; it runs in `IDLE` only (R101, R103), so a command offered in any other
state waits while that state's arm runs. -/
def State.sequencerEdge (accept : State → State) (s : State) : State :=
  match s.state with
  | .idle => accept s.clearStrobe
  | .revStep => armRevStep s.clearStrobe
  | .revWait => armRevWait s.clearStrobe
  | .stop => armStop s.clearStrobe
  | .brakeWait => armBrakeWait s.clearStrobe
  | .rampStep => armRampStep s.clearStrobe
  | .rampWait => armRampWait s.clearStrobe
  | .fault => armFault s.clearStrobe

/-- The acceptance action of an edge that offers no command: nothing (R103). -/
def acceptNone (s : State) : State := s

end Sys2Proof.Machine
end

