-- ==== Sys2Proof/Machine/Commands.lean ====
section
/-! DEFINITION. The two commands that do nothing, `NOP` and `RSVD` (spec/40_command_interface.md R104, R105). The meaning
of a command is the edge at which it stands on the command port, with `rst = 0` and no fault taking the edge: accepted in
`IDLE`, waiting in any other state (R101). -/

namespace Sys2Proof.Machine

/-- `NOP` at acceptance: nothing (R104). -/
def acceptNop (s : State) : State := s

/-- `NOP` (R104). -/
def execNop (s : State) : Host.Outcome State Fault Refusal := .next (s.sequencerEdge acceptNop)

/-- `RSVD` at acceptance: nothing; the hardware "accepts it and ignores it exactly like `NOP`" (R83, R105). -/
def acceptRsvd (s : State) : State := s

/-- `RSVD` (R105; log entry 6). -/
def execRsvd (s : State) : Host.Outcome State Fault Refusal := .next (s.sequencerEdge acceptRsvd)

end Sys2Proof.Machine
end

