-- ==== Sys2Proof/Machine/SetTarget.lean ====
section
/-! DEFINITION. `SET_TARGET` (spec/41_set_target.md R120, R121). Its meaning is its acceptance edge; the ramps and the
brake pause that follow are the sequencer's arms (Ramp.lean, Brake.lean), one per edge. -/

namespace Sys2Proof.Machine

/-- `accept_SET_TARGET(requested)` (R121). -/
def acceptSetTarget (req : Int) (s : State) : State :=
  (s.latchTarget (clamp s.cfg req) true).goto (if reversal s.speed (clamp s.cfg req) then .revStep else .rampStep)

/-- `SET_TARGET` (R120, R121). -/
def execSetTarget (speed : SpeedField) (s : State) : Host.Outcome State Fault Refusal :=
  .next (s.sequencerEdge (acceptSetTarget (requested speed)))

end Sys2Proof.Machine
end

