-- ==== Sys2Proof/Machine/Stop.lean ====
section
/-! DEFINITION. `STOP` (spec/42_stop_and_brake.md R150). Its meaning is its acceptance edge; the zero-write and the brake
pause are the arms of Brake.lean. -/

namespace Sys2Proof.Machine

/-- `accept_STOP` (R150). -/
def acceptStop (s : State) : State := (s.latchTarget 0 false).goto .stop

/-- `STOP` (R150). -/
def execStop (s : State) : Host.Outcome State Fault Refusal := .next (s.sequencerEdge acceptStop)

end Sys2Proof.Machine
end

