-- ==== Sys2Proof/Machine/Dispatch.lean ====
section
/-! DEFINITION. One arm per row of spec/opcode_table.json. -/

namespace Sys2Proof.Machine

def exec (i : Instr) (s : State) : Host.Outcome State Fault Refusal :=
  match i with
  | .nop => Sys2Proof.Machine.execNop s
  | .setTarget speed => Sys2Proof.Machine.execSetTarget speed s
  | .stop => Sys2Proof.Machine.execStop s
  | .rsvd => Sys2Proof.Machine.execRsvd s
  | .currentSpeed => Sys2Proof.Machine.execCurrentSpeed s
  | .currentDirection => Sys2Proof.Machine.execCurrentDirection s

end Sys2Proof.Machine
end

