-- ==== Sys2Proof/Machine/Edge.lean ====
section
/-! DEFINITION. One rising edge of `clk` (spec/40_command_interface.md R100) with the command port decoded
(spec/30_encoding.md R82). -/

namespace Sys2Proof.Machine

/-- R100, in its priority order: reset, then a backend error outside `FAULT`, then the arm of the state. With
`cmd_valid = 1` the arm is run by the command on the port (its acceptance action in `IDLE`). -/
def clockEdge (inp : Inputs) (s : State) : Host.Outcome State Fault Refusal :=
  if inp.rst then .next s.resetRegs
  else if inp.pwmErr && decide (s.state ≠ .fault) then .next s.raiseFault
  else if inp.cmdValid then exec (decode (wordOf inp)) s
  else .next (s.sequencerEdge acceptNone)

/-- One event of the environment: an edge, or an accessor call between edges (R84). -/
def runEvent (e : EnvEvent) (s : State) : Host.Outcome State Fault Refusal :=
  match e with
  | .edge inp => clockEdge inp s
  | .readSpeed => exec .currentSpeed s
  | .readDirection => exec .currentDirection s

end Sys2Proof.Machine
end

