-- ==== Sys2Proof/Machine/Step.lean ====
section
/-! DEFINITION. The step: the environment's next event. An instruction is fetched from the command port, not from a memory
(spec/20_memory.md R60, spec/40_command_interface.md R102). -/

namespace Sys2Proof.Machine

/-- Take the next event of the environment and run it. -/
def step (s : State) : Host.Outcome State Fault Refusal := runEvent s.nextEvent s.popEvent

/-- `s` in `IDLE` with the word on the command port at the next edge, so that the next step accepts and runs it (log entry
8). The word is one parallel value, bit k of `w` being bit k of the word (R61, R80). -/
def State.withFetchWord (s : State) (nbits w : Nat) : State := s.offerInIdle (BitVec.ofNat 18 (w % 2 ^ nbits))

end Sys2Proof.Machine
end

