-- ==== Sys2Proof/Machine/Observe.lean ====
section
/-! DEFINITION. What a run shows: the write trace (spec/43_outputs.md R181, spec/92_eei_decisions.md D36), and the event
tables and edge counts the spec gives for each command (spec/41_set_target.md R134, spec/42_stop_and_brake.md R153,
spec/70_reset_and_hazards.md R231, R250). -/

namespace Sys2Proof.Machine

/-- A PWM update event: the edge after which `pwm_wr = 1`, and the two duties it carries (R181). -/
structure PwmEvent where
  /-- The number of the edge. -/
  edge : Nat
  /-- `duty_a`. -/
  dutyA : Duty
  /-- `duty_b`. -/
  dutyB : Duty
deriving DecidableEq, Repr

/-- The event is a rising edge of `clk`. -/
def isEdge : EnvEvent → Bool
  | .edge _ => true
  | .readSpeed => false
  | .readDirection => false

/-- The event of an edge numbered `n` after which the block is in `t`: one if the strobe is up. -/
def eventsAfter (n : Nat) (t : State) : List PwmEvent := if t.pwmWr then [⟨n, t.dutyA, t.dutyB⟩] else []

/-- The write trace of the next `k` steps, whose first edge has the number `n + 1`. An accessor call takes no edge and
makes no event. -/
def writeTrace : Nat → Nat → State → List PwmEvent
  | 0, _, _ => []
  | k + 1, n, s =>
    match step s with
    | .next t =>
      if isEdge s.nextEvent then eventsAfter (n + 1) t ++ writeTrace k (n + 1) t else writeTrace k n t
    | .fault _ => []
    | .refused _ => []

/-- The event that writes the value `v` at edge `n`: one duty per channel (R180). -/
def projected (n : Nat) (v : Int) : PwmEvent := ⟨n, BitVec.ofInt 9 (max v 0), BitVec.ofInt 9 (max (-v) 0)⟩

/-- The step events of a ramp: step `k` of `n` at edge `e + k·P` with the value `c + (k+1)·d` (R134). -/
def rampEvents (period e : Nat) (c d : Int) (n : Nat) : List PwmEvent :=
  (List.range n).map fun k => projected (e + k * period) (c + (k + 1) * d)

/-- R134's tables: the events of one `SET_TARGET` accepted at edge `a` at speed `c`, with the clamped target `t`. -/
def setTargetEvents (cfg : Config) (a : Nat) (c t : Int) : List PwmEvent :=
  if reversal c t then
    rampEvents cfg.stepPeriod (a + 1) c (-sgn c) c.natAbs ++
      [projected (a + 1 + c.natAbs * cfg.stepPeriod) 0] ++
      rampEvents cfg.stepPeriod (a + 2 + c.natAbs * cfg.stepPeriod + cfg.brakeEdges) 0 (sgn t) t.natAbs ++
      [projected (a + 2 + c.natAbs * cfg.stepPeriod + cfg.brakeEdges + t.natAbs * cfg.stepPeriod) t]
  else
    rampEvents cfg.stepPeriod (a + 1) c (sgn (t - c)) (t - c).natAbs ++
      [projected (a + 1 + (t - c).natAbs * cfg.stepPeriod) t]

/-- R250: the edges a `SET_TARGET` is busy after its acceptance edge. -/
def setTargetBusyEdges (cfg : Config) (c t : Int) : Nat :=
  if reversal c t then 2 + (c.natAbs + t.natAbs) * cfg.stepPeriod + cfg.brakeEdges
  else 1 + (t - c).natAbs * cfg.stepPeriod

/-- R153, R250: the edges a `STOP` is busy after its acceptance edge, and the reset sequence after reset (R231). -/
def stopBusyEdges (cfg : Config) : Nat := 1 + cfg.brakeEdges

end Sys2Proof.Machine
end

