-- ==== Sys2Proof/Machine/Program.lean ====
section
/-! DEFINITION. Command programs (spec/30_encoding.md R85, R86) and the host that runs one
(spec/40_command_interface.md R106). The host is outside the block: this file drives `step` by placing, at every edge, the
inputs the host and the platform give. -/

namespace Sys2Proof.Machine

/-- The pseudo-commands (R86). -/
inductive Pseudo where
  | forward (n : Nat)
  | reverse (n : Nat)
  | coast
  | brake
  | fullForward
  | fullReverse
deriving DecidableEq, Repr

/-- A line of a program that is not blank: a command, a pseudo-command or a directive of the host (R85, R86). -/
inductive Line where
  | cmd (i : Instr)
  | pseudo (p : Pseudo)
  | waitIdle
  | hold (n : Nat)
deriving DecidableEq, Repr

/-- What a line makes the host do: offer a word, wait for `cmd_ready`, or offer nothing for `n` edges. -/
inductive HostLine where
  | offer (w : CmdWord)
  | waitIdle
  | hold (n : Nat)
deriving DecidableEq, Repr

/-- Why a program is refused. -/
inductive ProgramError where
  /-- The line issues the reserved opcode (R83, R85). -/
  | reservedOpcode
  /-- The line is an accessor, which has no encoding (R84). -/
  | notACommand
  /-- The operand of a pseudo-command is outside the range R86 gives. -/
  | operandOutOfRange
deriving DecidableEq, Repr

/-- The one command a pseudo-command expands to, if its operand is in range (R86). -/
def Pseudo.expand : Pseudo → Option Instr
  | .forward n => if n ≤ 32767 then some (.setTarget (BitVec.ofInt 16 n)) else none
  | .reverse n => if n ≤ 32768 then some (.setTarget (BitVec.ofInt 16 (-n))) else none
  | .coast => some (.setTarget 0)
  | .brake => some .stop
  | .fullForward => some (.setTarget (BitVec.ofInt 16 32767))
  | .fullReverse => some (.setTarget (BitVec.ofInt 16 (-32768)))

/-- The word a command of a program stands for (R85). -/
def assembleInstr (i : Instr) : Except ProgramError HostLine :=
  match encode i with
  | none => .error .notACommand
  | some w => if i.allowedInProgram then .ok (.offer w) else .error .reservedOpcode

/-- What one line makes the host do (R85, R86). -/
def Line.assemble : Line → Except ProgramError HostLine
  | .cmd i => assembleInstr i
  | .pseudo p =>
    match p.expand with
    | some i => assembleInstr i
    | none => .error .operandOutOfRange
  | .waitIdle => .ok .waitIdle
  | .hold n => .ok (.hold n)

/-- A whole program, refused at its first line that is. -/
def assembleProgram : List Line → Except ProgramError (List HostLine)
  | [] => .ok []
  | l :: rest =>
    match l.assemble with
    | .error e => .error e
    | .ok h =>
      match assembleProgram rest with
      | .error e => .error e
      | .ok hs => .ok (h :: hs)

/-- `HOLD 0` takes no edge (R106). -/
def dropEmptyHolds : List HostLine → List HostLine
  | .hold 0 :: rest => dropEmptyHolds rest
  | ls => ls

/-- The inputs at an edge: the host's offer (R106) and the platform's `rst` and `pwm_err`. -/
def hostInputs (rst pwmErr : Bool) : List HostLine → Inputs
  | .offer w :: _ => { offerInputs w with rst := rst, pwmErr := pwmErr }
  | .waitIdle :: _ => { quietInputs with rst := rst, pwmErr := pwmErr }
  | .hold _ :: _ => { quietInputs with rst := rst, pwmErr := pwmErr }
  | [] => { quietInputs with rst := rst, pwmErr := pwmErr }

/-- The lines left after an edge from `s` to `t` (R106): a command ends at its acceptance edge, `WAIT_IDLE` at the first
edge after which `cmd_ready = 1`, `HOLD n` after `n` edges. DESIGN CHOICE: a `WAIT_IDLE` begun when `cmd_ready` is already 1
still takes one edge (log entry 13). -/
def hostAdvance (inp : Inputs) (s t : State) : List HostLine → List HostLine
  | .offer w :: rest => if s.handshake inp then rest else .offer w :: rest
  | .waitIdle :: rest => if t.cmdReady then rest else .waitIdle :: rest
  | .hold n :: rest => if n ≤ 1 then rest else .hold (n - 1) :: rest
  | [] => []

/-- The edges at which the platform drives `rst = 1` and the backend `pwm_err = 1`. -/
structure Platform where
  /-- Edges with `rst = 1`. -/
  rstAt : List Nat
  /-- Edges with `pwm_err = 1`. -/
  errAt : List Nat
deriving DecidableEq, Repr

/-- A program under way: the last edge's number, the lines left, the block, and the write trace so far, newest first. -/
structure ProgramRun where
  /-- The number of the last edge. -/
  edge : Nat
  /-- The lines left. -/
  lines : List HostLine
  /-- The block. -/
  block : State
  /-- The events so far, newest first. -/
  trace : List PwmEvent
deriving DecidableEq, Repr

/-- One edge of a program. The block never faults or refuses in the host's sense; if it did, the run would stand still. -/
def ProgramRun.next (p : Platform) (r : ProgramRun) : ProgramRun :=
  let lines := dropEmptyHolds r.lines
  let inp := hostInputs (p.rstAt.contains (r.edge + 1)) (p.errAt.contains (r.edge + 1)) lines
  match step (r.block.place (.edge inp)) with
  | .next t =>
    { edge := r.edge + 1
      lines := hostAdvance inp r.block t lines
      block := t
      trace := eventsAfter (r.edge + 1) t ++ r.trace }
  | .fault _ => r
  | .refused _ => r

/-- R106: the end state is the state at the first edge after the last line at which `cmd_ready = 1` or `state = FAULT`. Runs
at most `fuel` edges. -/
def ProgramRun.toEnd (p : Platform) : Nat → ProgramRun → ProgramRun
  | 0, r => r
  | fuel + 1, r =>
    if dropEmptyHolds r.lines = [] ∧ ((r.next p).block.cmdReady ∨ (r.next p).block.state = .fault) then r.next p
    else (r.next p).toEnd p fuel

end Sys2Proof.Machine
end

