-- ==== Sys2Proof/Machine/Assembler.lean ====
section
/-! DEFINITION. The text of a command program (spec/30_encoding.md R85, R86): one line at a time, as a list of characters.
Blanks are spaces and tabs (log entry 9). -/

namespace Sys2Proof.Machine

/-- Why a line of text is refused. -/
inductive TextError where
  /-- The first word is no mnemonic of R85 or R86. -/
  | unknownMnemonic
  /-- The line is `RSVD`: "an assembler refuses ... `RSVD`" (R85). -/
  | reservedOpcode
  /-- An operand is missing, or one stands where none is taken. -/
  | wrongOperandCount
  /-- The operand is no decimal integer and no `0x` pattern (R85). -/
  | badNumber
  /-- The operand is outside the range R85 or R86 gives. -/
  | outOfRange
deriving DecidableEq, Repr

/-- A space or a tab. -/
def isBlank (c : Char) : Bool := c = ' ' || c = '\t'

/-- The line without its comment, which runs from `;` to the end (R85). -/
def dropComment (cs : List Char) : List Char := cs.takeWhile (· ≠ ';')

/-- The words of a line: `cur` is the word being read, in reverse. -/
def wordsFrom : List Char → List Char → List (List Char)
  | cur, [] => if cur = [] then [] else [cur.reverse]
  | cur, c :: cs =>
    if isBlank c then (if cur = [] then wordsFrom [] cs else cur.reverse :: wordsFrom [] cs)
    else wordsFrom (c :: cur) cs

/-- The value of a decimal digit. -/
def decDigit (c : Char) : Option Nat := if '0'.toNat ≤ c.toNat ∧ c.toNat ≤ '9'.toNat then some (c.toNat - '0'.toNat) else none

/-- The value of a hexadecimal digit. -/
def hexDigit (c : Char) : Option Nat :=
  if 'a'.toNat ≤ c.toNat ∧ c.toNat ≤ 'f'.toNat then some (c.toNat - 'a'.toNat + 10)
  else if 'A'.toNat ≤ c.toNat ∧ c.toNat ≤ 'F'.toNat then some (c.toNat - 'A'.toNat + 10)
  else decDigit c

/-- The number a list of digits spells, after the digits read so far gave `acc`. -/
def digitsFrom (base : Nat) (digit : Char → Option Nat) : Nat → List Char → Option Nat
  | acc, [] => some acc
  | acc, c :: cs =>
    match digit c with
    | some d => digitsFrom base digit (acc * base + d) cs
    | none => none

/-- A decimal number of at least one digit. -/
def decimal (cs : List Char) : Option Nat := if cs = [] then none else digitsFrom 10 decDigit 0 cs

/-- An `<int>` of R85: a decimal integer with optional sign, or a `0x` hexadecimal 16-bit pattern, which stands for its
two's-complement value. -/
def parseInt (cs : List Char) : Except TextError Int :=
  match cs with
  | '0' :: 'x' :: hex =>
    match (if hex = [] then none else digitsFrom 16 hexDigit 0 hex) with
    | some n => if n < 65536 then .ok (BitVec.ofNat 16 n).toInt else .error .outOfRange
    | none => .error .badNumber
  | '-' :: rest =>
    match decimal rest with
    | some n => .ok (-(n : Int))
    | none => .error .badNumber
  | '+' :: rest =>
    match decimal rest with
    | some n => .ok (n : Int)
    | none => .error .badNumber
  | _ =>
    match decimal cs with
    | some n => .ok (n : Int)
    | none => .error .badNumber

/-- An operand that is a number in `lo..hi`. -/
def operandIn (lo hi : Int) (cs : List Char) : Except TextError Int :=
  match parseInt cs with
  | .ok v => if lo ≤ v ∧ v ≤ hi then .ok v else .error .outOfRange
  | .error e => .error e

/-- A line with one operand in `lo..hi`, written as an `<int>` of R85. For `FORWARD` and `REVERSE` that is a DESIGN CHOICE: R86
gives the range of their `<n>` and not its written form (log entry 9). -/
def withOperand (lo hi : Int) (mk : Int → Line) : List (List Char) → Except TextError (Option Line)
  | [x] =>
    match operandIn lo hi x with
    | .ok v => .ok (some (mk v))
    | .error e => .error e
  | _ => .error .wrongOperandCount

/-- A line with no operand. -/
def withoutOperand (l : Line) : List (List Char) → Except TextError (Option Line)
  | [] => .ok (some l)
  | _ => .error .wrongOperandCount

/-- `HOLD <n>`, with `n` a decimal number of cycles. -/
def holdLine : List (List Char) → Except TextError (Option Line)
  | [x] =>
    match decimal x with
    | some n => .ok (some (.hold n))
    | none => .error .badNumber
  | _ => .error .wrongOperandCount

/-- The line whose first word is `m` and whose other words are `args` (R85, R86). DESIGN CHOICE: the `<n>` of `FORWARD` and
`REVERSE` is read as an `<int>`, so a sign and a `0x` pattern are taken, and `REVERSE 0x8000` is refused, being -32768 (log
entry 9). -/
def parseWords (m : List Char) (args : List (List Char)) : Except TextError (Option Line) :=
  if m = ['N', 'O', 'P'] then withoutOperand (.cmd .nop) args
  else if m = ['S', 'T', 'O', 'P'] then withoutOperand (.cmd .stop) args
  else if m = ['S', 'E', 'T', '_', 'T', 'A', 'R', 'G', 'E', 'T'] then
    withOperand (-32768) 32767 (fun v => .cmd (.setTarget (BitVec.ofInt 16 v))) args
  else if m = ['W', 'A', 'I', 'T', '_', 'I', 'D', 'L', 'E'] then withoutOperand .waitIdle args
  else if m = ['H', 'O', 'L', 'D'] then holdLine args
  else if m = ['F', 'O', 'R', 'W', 'A', 'R', 'D'] then withOperand 0 32767 (fun v => .pseudo (.forward v.toNat)) args
  else if m = ['R', 'E', 'V', 'E', 'R', 'S', 'E'] then withOperand 0 32768 (fun v => .pseudo (.reverse v.toNat)) args
  else if m = ['C', 'O', 'A', 'S', 'T'] then withoutOperand (.pseudo .coast) args
  else if m = ['B', 'R', 'A', 'K', 'E'] then withoutOperand (.pseudo .brake) args
  else if m = ['F', 'U', 'L', 'L', '_', 'F', 'O', 'R', 'W', 'A', 'R', 'D'] then withoutOperand (.pseudo .fullForward) args
  else if m = ['F', 'U', 'L', 'L', '_', 'R', 'E', 'V', 'E', 'R', 'S', 'E'] then withoutOperand (.pseudo .fullReverse) args
  else if m = ['R', 'S', 'V', 'D'] then .error .reservedOpcode
  else .error .unknownMnemonic

/-- One line of text: nothing for a blank or a comment, else the line it spells (R85). -/
def parseLine (cs : List Char) : Except TextError (Option Line) :=
  match wordsFrom [] (dropComment cs) with
  | [] => .ok none
  | m :: args => parseWords m args

end Sys2Proof.Machine
end

