-- ==== Sys2Proof/Safety.lean ====
section
/-! DEFINITION. The terms the statements use: what the environment is assumed to do, a command being accepted, the
invariants the spec lists for every reachable state (spec/10_state.md R41) and the stronger one that every step keeps. -/

namespace Sys2Proof.Machine

/-- The event is an edge with `rst = 0` and `pwm_err = 0`; whatever the command port carries. -/
def quietEvent : EnvEvent → Bool
  | .edge inp => !inp.rst && !inp.pwmErr
  | .readSpeed => false
  | .readDirection => false

/-- The environment's next `k` events are edges with `rst = 0` and `pwm_err = 0`. Commands may be offered at any of them. -/
def State.quietFor : Nat → State → Bool
  | 0, _ => true
  | k + 1, s => quietEvent s.nextEvent && State.quietFor k s.popEvent

/-- The environment's next `k` events hold no edge with `rst = 1`. -/
def State.noResetFor : Nat → State → Bool
  | 0, _ => true
  | k + 1, s =>
    (match s.nextEvent with
      | .edge inp => !inp.rst
      | .readSpeed => true
      | .readDirection => true) && State.noResetFor k s.popEvent

/-- The next edge is one at which the command `i` is accepted and runs: `IDLE`, `cmd_valid = 1`, the port decodes to `i`,
and neither reset nor a backend error takes the edge (R101, R102, R206). -/
def State.accepts (s : State) (i : Instr) : Prop :=
  s.state = .idle ∧ ∃ inp, s.nextEvent = .edge inp ∧ inp.rst = false ∧ inp.pwmErr = false ∧ inp.cmdValid = true ∧
    decode (wordOf inp) = i

/-- Every register holds its reset value (R40); the configuration and the environment are any. -/
def State.atReset (s : State) : Prop := s = s.resetRegs

/-- R41's item 1: both speed registers lie in the configuration's range, the domain R180 gives `emit`. -/
def State.SpeedsInRange (s : State) : Prop :=
  (-(s.cfg.maxSpeed : Int) ≤ s.speed ∧ s.speed ≤ s.cfg.maxSpeed) ∧
    (-(s.cfg.maxSpeed : Int) ≤ s.target ∧ s.target ≤ s.cfg.maxSpeed)

/-- R41, item by item. -/
structure ListedInvariants (s : State) : Prop where
  /-- Item 1, for `cur_speed`. -/
  speedInRange : -(s.cfg.maxSpeed : Int) ≤ s.speed ∧ s.speed ≤ s.cfg.maxSpeed
  /-- Item 1, for `tgt_speed`. -/
  targetInRange : -(s.cfg.maxSpeed : Int) ≤ s.target ∧ s.target ≤ s.cfg.maxSpeed
  /-- Item 2, channel A. -/
  dutyAProjects : (s.dutyA.toNat : Int) = max s.speed 0
  /-- Item 2, channel B. -/
  dutyBProjects : (s.dutyB.toNat : Int) = max (-s.speed) 0
  /-- Item 3. -/
  idleAtTarget : s.state = .idle → s.speed = s.target
  /-- Item 4. -/
  waitRunning : s.state = .revWait ∨ s.state = .brakeWait ∨ s.state = .rampWait →
    1 ≤ s.dlyCnt.toNat ∧ s.presc ≤ s.cfg.clkPerMs - 1
  /-- Item 5. -/
  reversalUnderWay : s.state = .revStep ∨ s.state = .revWait →
    s.resume = true ∧ (s.speed ≠ 0 ∨ s.state = .revWait) ∧ (s.speed ≠ 0 → sgn s.target = -sgn s.speed)
  /-- Item 6. -/
  faultBit : s.fault = true ↔ s.state = .fault

/-- The invariant every step keeps: R41 with what its induction needs, all of it said by the spec elsewhere. -/
structure StepInvariant (s : State) : Prop where
  /-- R41. -/
  listed : ListedInvariants s
  /-- R26: `presc` lies in 0..CLK_PER_MS - 1 in every state. -/
  prescInRange : s.presc ≤ s.cfg.clkPerMs - 1
  /-- R190: "`cur_speed = 0` from the `STOP` arm on", through the brake pause. -/
  brakeAtZero : s.state = .brakeWait → s.speed = 0
  /-- R24: a stop that does not resume a ramp has target 0 (R22: "0 after `STOP` or reset"). -/
  stopTargetsZero : (s.state = .stop ∨ s.state = .brakeWait) → s.resume = false → s.target = 0
  /-- R181: "every write arm is entered from an edge that writes nothing". -/
  writeArmsUnstrobed : s.state = .revStep ∨ s.state = .stop ∨ s.state = .rampStep ∨ s.state = .fault → s.pwmWr = false

/-- The block is ramping toward a target that does not lie on the other side of zero. With `ReversalStepArm` and
`StopArmZeroes` this is why a speed of one sign becomes one of the other only through a stop (R138). -/
def State.RampsOnOneSide (s : State) : Prop := s.state = .rampStep ∨ s.state = .rampWait → 0 ≤ s.speed * s.target

end Sys2Proof.Machine
end

