-- ==== Sys2Proof/Certificates/Slice0/Obligations.lean ====
section
/-! DEFINITION. The statements for the provers. Each says which rule of spec/ it formalises. An "edge" in a docstring is
one step whose event is a rising edge of `clk`; a quiet edge has `rst = 0` and `pwm_err = 0`. `s.popEvent` is `s` with the
environment past the event the step takes (fields of the model's own, log entry 4); its registers are those of `s`. -/

open Sys2Proof Sys2Proof.Machine

/-! ## Encoding and decoding -/

/-- R87: every row of the table of encoding examples, read by the decoder, and the canonical words from the encoder. -/
def Obligations.DocumentedWordsDecode : Prop :=
  (decode 0x00000#18 = .nop ∧ encode .nop = some 0x00000#18) ∧
  (decode 0x10064#18 = .setTarget 0x0064#16 ∧ encode (.setTarget (BitVec.ofInt 16 100)) = some 0x10064#18 ∧
    requested 0x0064#16 = 100) ∧
  (decode 0x1FFCE#18 = .setTarget 0xFFCE#16 ∧ encode (.setTarget (BitVec.ofInt 16 (-50))) = some 0x1FFCE#18 ∧
    requested 0xFFCE#16 = -50) ∧
  (decode 0x1270F#18 = .setTarget 0x270F#16 ∧ encode (.setTarget (BitVec.ofInt 16 9999)) = some 0x1270F#18 ∧
    requested 0x270F#16 = 9999) ∧
  (decode 0x17FFF#18 = .setTarget 0x7FFF#16 ∧ encode (.setTarget (BitVec.ofInt 16 32767)) = some 0x17FFF#18 ∧
    requested 0x7FFF#16 = 32767) ∧
  (decode 0x18000#18 = .setTarget 0x8000#16 ∧ encode (.setTarget (BitVec.ofInt 16 (-32768))) = some 0x18000#18 ∧
    requested 0x8000#16 = -32768) ∧
  (decode 0x10000#18 = .setTarget 0x0000#16 ∧ encode (.setTarget (BitVec.ofInt 16 0)) = some 0x10000#18 ∧
    requested 0x0000#16 = 0) ∧
  (decode 0x20000#18 = .stop ∧ encode .stop = some 0x20000#18) ∧
  (decode 0x2ABCD#18 = .stop ∧ opField 0x2ABCD#18 = 0b10#2 ∧ speedField 0x2ABCD#18 = 0xABCD#16)

/-- R80 to R82, R84: decoding the encoding of any command gives the command back, with every operand; every well-formed
instruction has an encoding and no accessor has one. -/
def Obligations.DecodeOfEncode : Prop :=
  ∀ i : Instr, (i.wellFormed = true → ∃ w, encode i = some w ∧ decode w = i) ∧ (i.wellFormed = false → encode i = none)

/-- R80 to R82: every word decodes to a command whose canonical word has the same opcode and decodes the same; a word of
`SET_TARGET` is its own canonical word. -/
def Obligations.EncodeOfDecode : Prop :=
  ∀ w : CmdWord, ∃ w', encode (decode w) = some w' ∧ opField w' = opField w ∧ decode w' = decode w ∧
    (opField w = 0b01#2 → w' = w)

/-- R82: the opcode map as match and mask over the 18-bit word, for every word; every word has a meaning. -/
def Obligations.OpcodeMapByMatchAndMask : Prop :=
  ∀ w : CmdWord,
    (w &&& 0x30000#18 = 0x00000#18 ↔ decode w = .nop) ∧
    (w &&& 0x30000#18 = 0x10000#18 ↔ decode w = .setTarget (speedField w)) ∧
    (w &&& 0x30000#18 = 0x20000#18 ↔ decode w = .stop) ∧
    (w &&& 0x30000#18 = 0x30000#18 ↔ decode w = .rsvd) ∧
    (decode w = .nop ∨ decode w = .setTarget (speedField w) ∨ decode w = .stop ∨ decode w = .rsvd)

/-- R81: the operand of `SET_TARGET` is the sign-extended low half of the word, an integer in -32768..32767; every other
command ignores those bits; and saturating a wider request to 16 bits before sending it does not change its clamp. -/
def Obligations.OperandIsSignExtendedLowHalf : Prop :=
  (∀ w : CmdWord, opField w = 0b01#2 →
    decode w = .setTarget (w.extractLsb' 0 16) ∧ requested (w.extractLsb' 0 16) = (w.extractLsb' 0 16).toInt ∧
    -32768 ≤ requested (w.extractLsb' 0 16) ∧ requested (w.extractLsb' 0 16) ≤ 32767) ∧
  (∀ w w' : CmdWord, opField w = opField w' → opField w ≠ 0b01#2 → decode w = decode w') ∧
  (∀ (c : Config) (v : Int), clamp c (requested (BitVec.ofInt 16 (max (-32768) (min 32767 v)))) = clamp c v)

/-! ## Parameters -/

/-- R8: a choice of parameters that breaks a condition of R8 is refused, and a configuration has the parameters it was
elaborated from. That every choice meeting the conditions elaborates, whatever its `PWM_FREQ_HZ` (0 included), is the model's
choice: R8 says "legal only if" and the spec gives the frequency no domain (log entry 12). -/
def Obligations.ElaborationRefusesIllegal : Prop :=
  (∀ p : Params, (∃ c, p.elaborate = .ok c) ↔
    ((p.maxSpeed = 255 ∨ p.maxSpeed = 256) ∧ 1000 ≤ p.reverseBrakeMs ∧ p.reverseBrakeMs ≤ 2000 ∧ p.rampStepDelayMs = 40 ∧
      1 ≤ p.clkPerMs ∧ p.maxSpeed ≤ 2 ^ p.pwmResBits - 1)) ∧
  (∀ (p : Params) (c : Config), p.elaborate = .ok c → c.params = p) ∧
  (∀ c : Config, c.params.elaborate = .ok c)

/-- R6: no step changes the configuration. -/
def Obligations.ConfigurationNeverChanges : Prop :=
  ∀ s t : State, step s = .next t → t.cfg = s.cfg

/-! ## Operands and comparators -/

/-- R122: the clamp lies in the range and fits `tgt_speed`; values in range pass unchanged, values beyond it give the
nearer end. -/
def Obligations.ClampKeepsRange : Prop :=
  ∀ (c : Config) (v : Int),
    clamp c v = max (-(c.maxSpeed : Int)) (min (c.maxSpeed : Int) v) ∧
    (-(c.maxSpeed : Int) ≤ clamp c v ∧ clamp c v ≤ c.maxSpeed) ∧
    (BitVec.ofInt 10 (clamp c v)).toInt = clamp c v ∧
    (-(c.maxSpeed : Int) ≤ v → v ≤ c.maxSpeed → clamp c v = v) ∧
    ((c.maxSpeed : Int) < v → clamp c v = c.maxSpeed) ∧
    (v < -(c.maxSpeed : Int) → clamp c v = -(c.maxSpeed : Int))

/-- R123: the reversal comparator is true exactly when the product of the two speeds is negative, equivalently when they have
strictly opposite non-zero signs; an accepted `SET_TARGET` applies it to `cur_speed` before the edge and the CLAMPED
target. -/
def Obligations.ReversalIsNegativeProduct : Prop :=
  (∀ c t : Int, (reversal c t = true ↔ c * t < 0) ∧ (reversal c t = true ↔ (0 < c ∧ t < 0) ∨ (c < 0 ∧ 0 < t))) ∧
  (∀ (s : State) (sp : SpeedField), s.accepts (.setTarget sp) →
    ∃ t, step s = .next t ∧ (s.speed * clamp s.cfg (requested sp) < 0 → t.state = .revStep) ∧
      (0 ≤ s.speed * clamp s.cfg (requested sp) → t.state = .rampStep))

/-- R124: zero is never a reversal. A target of 0 from any speed and any target from speed 0 go straight to the ramp, and
from a ramp state quiet edges lead to ramp states and `IDLE` only, so there is no brake pause on the way. -/
def Obligations.ZeroIsNeverReversal : Prop :=
  (∀ (s : State) (sp : SpeedField), s.accepts (.setTarget sp) → s.speed = 0 ∨ clamp s.cfg (requested sp) = 0 →
    ∃ t, step s = .next t ∧ t.state = .rampStep) ∧
  (∀ s : State, s.state = .rampStep ∨ s.state = .rampWait → quietEvent s.nextEvent = true →
    ∃ t, step s = .next t ∧ (t.state = .rampStep ∨ t.state = .rampWait ∨ t.state = .idle))

/-! ## The step and the command port -/

/-- R100, R102, R103, V7's third row: at an edge that neither reset nor a fault takes, the step is `exec` of the command on the port, or the
arm of the state with no acceptance when `cmd_valid = 0`, which in `IDLE` changes nothing but `pwm_wr <- 0`; an accessor call is `exec` of the accessor. Around it the step
only moves the environment past its event. -/
def Obligations.StepRunsDecodedCommand : Prop :=
  (∀ (s : State) (inp : Inputs), s.nextEvent = .edge inp → inp.rst = false → (inp.pwmErr = true → s.state = .fault) →
    (inp.cmdValid = true → step s = exec (decode (cmdWord inp.cmdOp inp.cmdSpeed)) s.popEvent) ∧
    (inp.cmdValid = false → step s = .next (s.popEvent.sequencerEdge acceptNone))) ∧
  (∀ (s : State) (inp : Inputs), s.state = .idle → s.nextEvent = .edge inp → inp.rst = false → inp.pwmErr = false →
    inp.cmdValid = false → step s = .next { s.popEvent with pwmWr := false }) ∧
  (∀ s : State, s.nextEvent = .readSpeed → step s = exec .currentSpeed s.popEvent) ∧
  (∀ s : State, s.nextEvent = .readDirection → step s = exec .currentDirection s.popEvent) ∧
  (∀ s : State, s.popEvent = { s with pending := s.popEvent.pending, freeDraws := s.popEvent.freeDraws }) ∧
  (∀ (s : State) (e : EnvEvent), (s.place e).nextEvent = e ∧ (s.place e).popEvent = s)

/-- The word that `withFetchWord` places is the instruction the next step runs, in `IDLE` (R101, R103). Placing it is the
model's own operation (log entry 8). -/
def Obligations.PlacedWordRuns : Prop :=
  ∀ (s : State) (nbits w : Nat) (i : Instr), decodeTableWord nbits w = some i →
    step (s.withFetchWord nbits w) = exec i { s with state := .idle }

/-- R101: a command is accepted only in `IDLE`: in every other state every command word gives the same edge, that of the
state's arm, and `tgt_speed` and `resume` keep their values. -/
def Obligations.CommandsWaitWhileBusy : Prop :=
  ∀ (s : State) (i : Instr), i.isCommand = true → s.state ≠ .idle →
    ∃ t, exec i s = .next t ∧ t = s.sequencerEdge acceptNone ∧ t.tgtSpeed = s.tgtSpeed ∧ t.resume = s.resume

/-- R68: after acceptance the command port has no influence: outside `IDLE` two edges that agree on `rst` and `pwm_err` do the
same, whatever stands on `cmd_valid`, `cmd_op` and `cmd_speed`. -/
def Obligations.CommandPortIgnoredWhileBusy : Prop :=
  ∀ (s : State) (inp inp' : Inputs), s.state ≠ .idle → inp.rst = inp'.rst → inp.pwmErr = inp'.pwmErr →
    clockEdge inp s = clockEdge inp' s

/-- R100: the case is total. Every step of every state answers a next state; so does any number of steps. -/
def Obligations.StepNeverStops : Prop :=
  ∀ (k : Nat) (s : State), ∃ t : State, Host.Core.run Sys2Proof.core k s = .next t

/-- R191: the sequencer leaves `IDLE` only by an accepted `SET_TARGET` or `STOP`; every other way out is reset or fault
entry. -/
def Obligations.OnlyCommandsLeaveIdle : Prop :=
  ∀ s t : State, s.state = .idle → step s = .next t → t.state ≠ .idle →
    (∃ sp, s.accepts (.setTarget sp)) ∨ s.accepts .stop ∨
    (∃ inp, s.nextEvent = .edge inp ∧ (inp.rst = true ∨ inp.pwmErr = true))

/-! ## Reset and the fault -/

/-- R230: an edge with `rst = 1` loads every register's reset value, whatever the state and the other inputs, and issues no
event; only such an edge leaves `FAULT`. -/
def Obligations.ResetLoadsEveryRegister : Prop :=
  (∀ (s : State) (inp : Inputs), s.nextEvent = .edge inp → inp.rst = true →
    step s = .next { s.popEvent with
      curSpeed := 0, tgtSpeed := 0, state := .stop, resume := false, dlyCnt := 0, presc := 0, dutyA := 0, dutyB := 0,
      pwmWr := false, fault := false }) ∧
  (∀ s t : State, s.state = .fault → step s = .next t → t.state ≠ .fault →
    ∃ inp, s.nextEvent = .edge inp ∧ inp.rst = true)

/-- R40: the values after reset, and the outputs in the cycle after it. -/
def Obligations.ResetValues : Prop :=
  State.reset.atReset ∧
  ∀ s : State, s.atReset →
    s.curSpeed = 0 ∧ s.tgtSpeed = 0 ∧ s.state = .stop ∧ s.state.code = 3 ∧ s.resume = false ∧ s.dlyCnt = 0 ∧ s.presc = 0 ∧
    s.dutyA = 0 ∧ s.dutyB = 0 ∧ s.pwmWr = false ∧ s.fault = false ∧
    s.busy = true ∧ s.cmdReady = false ∧ s.speedOut = 0 ∧ s.dirOut = 0b00#2

/-- R202: fault entry sets `state`, `fault` and `pwm_wr` and keeps every other register; no arm runs, whatever the state was;
and no PWM update event follows until a reset. -/
def Obligations.FaultEntryKeepsRegisters : Prop :=
  ∀ (s : State) (inp : Inputs), s.nextEvent = .edge inp → inp.rst = false → inp.pwmErr = true → s.state ≠ .fault →
    ∃ t, step s = .next t ∧ t = { s.popEvent with state := .fault, fault := true, pwmWr := false } ∧
      ∀ k n, t.noResetFor k = true → writeTrace k n t = []

/-- R203: in `FAULT`, an edge without reset changes nothing except `pwm_wr <- 0`, `pwm_err` is ignored, no command is ever
accepted, and the only way out is reset. -/
def Obligations.FaultArmDoesNothing : Prop :=
  (∀ (s : State) (inp : Inputs), s.state = .fault → s.nextEvent = .edge inp → inp.rst = false →
    step s = .next { s.popEvent with pwmWr := false }) ∧
  (∀ s : State, s.state = .fault → s.cmdReady = false ∧ s.busy = false ∧ ∀ inp, s.handshake inp = false) ∧
  (∀ s t : State, s.state = .fault → step s = .next t → t.state ≠ .fault → ∃ inp, s.nextEvent = .edge inp ∧ inp.rst = true)

/-- R188, R203: however long the block is left in `FAULT` without reset, every register but the strobe holds. -/
def Obligations.FaultHoldsUntilReset : Prop :=
  ∀ (k : Nat) (s : State), s.state = .fault → s.noResetFor k = true →
    ∃ t : State, Host.Core.run Sys2Proof.core k s = .next t ∧ t.state = .fault ∧ t.fault = s.fault ∧
      t.curSpeed = s.curSpeed ∧ t.tgtSpeed = s.tgtSpeed ∧ t.resume = s.resume ∧ t.dlyCnt = s.dlyCnt ∧ t.presc = s.presc ∧
      t.dutyA = s.dutyA ∧ t.dutyB = s.dutyB ∧ (s.pwmWr = false → t.pwmWr = false)

/-- R201: the only cause of a fault is `pwm_err = 1` at an edge with `rst = 0`. No command raises one. -/
def Obligations.OnlyBackendRaisesFault : Prop :=
  (∀ s t : State, s.state ≠ .fault → step s = .next t → t.state = .fault →
    ∃ inp, s.nextEvent = .edge inp ∧ inp.rst = false ∧ inp.pwmErr = true) ∧
  (∀ (i : Instr) (s t : State), s.state ≠ .fault → exec i s = .next t → t.state ≠ .fault ∧ t.fault = s.fault)

/-! ## The commands: what each does when it is accepted, and its frame -/

/-- R104: an accepted `NOP` changes no register but the strobe's default; offered in any other state it waits while that
state's arm runs. -/
def Obligations.NopChangesNothing : Prop :=
  (∀ s : State, s.state = .idle →
    ∃ t, exec .nop s = .next t ∧ t = { s with pwmWr := false } ∧ t.state = .idle ∧ t.dirOut = s.dirOut ∧ t.busy = s.busy ∧
      t.fault = s.fault) ∧
  (∀ s : State, s.state ≠ .idle → exec .nop s = .next (s.sequencerEdge acceptNone))

/-- R105: the reserved opcode is accepted and ignored: in `IDLE` the handshake completes as for any other command and nothing
changes but the strobe's default; and in every state it does what `NOP` does (R83, R101). -/
def Obligations.ReservedActsAsNop : Prop :=
  (∀ s : State, s.state = .idle → exec .rsvd s = .next { s with pwmWr := false }) ∧
  (∀ s : State, exec .rsvd s = exec .nop s) ∧
  (∀ (s : State) (inp : Inputs), s.state = .idle → inp.cmdValid = true → decode (wordOf inp) = .rsvd →
    s.handshake inp = true) ∧
  decode 0x30005#18 = .rsvd

/-- R121: the acceptance edge of `SET_TARGET` latches the clamped target and `resume`, branches on the reversal comparator,
and changes nothing else. -/
def Obligations.SetTargetAcceptance : Prop :=
  ∀ (s : State) (sp : SpeedField), s.state = .idle →
    ∃ t, exec (.setTarget sp) s = .next t ∧ t.target = clamp s.cfg (requested sp) ∧
      t = { s with
        pwmWr := false, tgtSpeed := BitVec.ofInt 10 (clamp s.cfg (requested sp)), resume := true,
        state := if reversal s.speed (clamp s.cfg (requested sp)) then .revStep else .rampStep }

/-- R150: the acceptance edge of `STOP` sets the target to 0, clears `resume`, goes to the `STOP` state, and changes nothing
else. -/
def Obligations.StopAcceptance : Prop :=
  ∀ s : State, s.state = .idle →
    exec .stop s = .next { s with pwmWr := false, tgtSpeed := 0, resume := false, state := .stop }

/-- R22, R24, R21, R30, R34: the frame of every command in every state: no command touches the configuration, the environment,
the host's result or `fault`; `tgt_speed` and `resume` change only at the acceptance of `SET_TARGET` or `STOP`; the speed and
the duties change only in the write arms. -/
def Obligations.CommandFrame : Prop :=
  ∀ (i : Instr) (s t : State), i.isCommand = true → exec i s = .next t →
    t.cfg = s.cfg ∧ t.pending = s.pending ∧ t.freeDraws = s.freeDraws ∧ t.hostResult = s.hostResult ∧ t.fault = s.fault ∧
    (s.state ≠ .idle ∨ i = .nop ∨ i = .rsvd → t.tgtSpeed = s.tgtSpeed ∧ t.resume = s.resume) ∧
    (s.state ≠ .revStep → s.state ≠ .stop → s.state ≠ .rampStep →
      t.curSpeed = s.curSpeed ∧ t.dutyA = s.dutyA ∧ t.dutyB = s.dutyB ∧ t.pwmWr = false) ∧
    (s.state = .idle ∨ s.state = .fault → t.dlyCnt = s.dlyCnt ∧ t.presc = s.presc)

/-! ## The accessors -/

/-- R184: `currentSpeed()` gives the host the port `speed_out`, which is `cur_speed`, in every state; no register changes.
The field that takes the value is the model's own (log entry 5). -/
def Obligations.CurrentSpeedReadsPort : Prop :=
  ∀ s : State, s.speedOut = s.curSpeed ∧ exec .currentSpeed s = .next { s with hostResult := some (.speed s.curSpeed) }

/-- R185: `currentDirection()` gives the host the direction code of the sign of `cur_speed`, in every state; the code 11 is
never driven; no register changes. The field that takes the value is the model's own (log entry 5). -/
def Obligations.CurrentDirectionReadsSign : Prop :=
  ∀ s : State, exec .currentDirection s = .next { s with hostResult := some (.direction s.dirOut) } ∧
    (0 < s.speed → s.dirOut = 0b01#2) ∧ (s.speed < 0 → s.dirOut = 0b10#2) ∧ (s.speed = 0 → s.dirOut = 0b00#2) ∧
    s.dirOut ≠ 0b11#2

/-- R186, R101, R33: `busy` and `cmd_ready` as functions of the state alone; a block that is neither ready nor busy is dead,
and the `fault` bit says so under R41's item 6. -/
def Obligations.StatusOutputs : Prop :=
  ∀ s : State, (s.cmdReady = true ↔ s.state = .idle) ∧ (s.busy = true ↔ s.state ≠ .idle ∧ s.state ≠ .fault) ∧
    (s.cmdReady = false ∧ s.busy = false ↔ s.state = .fault) ∧
    (ListedInvariants s → (s.cmdReady = false ∧ s.busy = false ↔ s.fault = true))

/-! ## The arms -/

/-- R126: one step of the reversal ramp, with its write and the load of the ramp-step delay; the magnitude falls by
one, and under R41's invariants the speed is not 0 when the arm runs. -/
def Obligations.ReversalStepArm : Prop :=
  ∀ s : State, s.state = .revStep → quietEvent s.nextEvent = true →
    ∃ t, step s = .next t ∧ t.speed = s.speed - sgn s.speed ∧ (s.speed ≠ 0 → t.speed.natAbs = s.speed.natAbs - 1) ∧
      (ListedInvariants s → s.speed ≠ 0) ∧
      (t.dutyA.toNat : Int) = max t.speed 0 ∧ (t.dutyB.toNat : Int) = max (-t.speed) 0 ∧
      t.dlyCnt.toNat = s.cfg.rampStepDelayMs ∧
      t = { s.popEvent with
        curSpeed := t.curSpeed, dutyA := t.dutyA, dutyB := t.dutyB, pwmWr := true, dlyCnt := t.dlyCnt, presc := 0,
        state := .revWait }

/-- R127: the delay after a reversal step ticks; at its end the block stops at speed 0, else steps on. -/
def Obligations.ReversalWaitArm : Prop :=
  ∀ s : State, s.state = .revWait → quietEvent s.nextEvent = true →
    step s = .next { s.popEvent with
      pwmWr := false, dlyCnt := s.tick.dlyCnt, presc := s.tick.presc,
      state := if s.tickDone then (if s.speed = 0 then .stop else .revStep) else .revWait }

/-- R130, R180: with the target reached, `RAMP_STEP` issues the final write, the duties exactly the projection of a speed in
range, and returns to `IDLE`; no delay follows. -/
def Obligations.FinalWriteArm : Prop :=
  ∀ s : State, s.state = .rampStep → s.speed = s.target → quietEvent s.nextEvent = true →
    ∃ t, step s = .next t ∧
      (s.SpeedsInRange → (t.dutyA.toNat : Int) = max s.speed 0 ∧ (t.dutyB.toNat : Int) = max (-s.speed) 0) ∧
      t = { s.popEvent with dutyA := t.dutyA, dutyB := t.dutyB, pwmWr := true, state := .idle }

/-- R131, R132: with the target not reached, `RAMP_STEP` moves the speed by one toward it, writes it (the duties exactly
its projection when the speeds are in range, R180), and loads the ramp-step delay. -/
def Obligations.RampStepArm : Prop :=
  ∀ s : State, s.state = .rampStep → s.speed ≠ s.target → quietEvent s.nextEvent = true →
    ∃ t, step s = .next t ∧ (s.speed < s.target → t.speed = s.speed + 1) ∧ (s.target < s.speed → t.speed = s.speed - 1) ∧
      (s.SpeedsInRange → (t.dutyA.toNat : Int) = max t.speed 0 ∧ (t.dutyB.toNat : Int) = max (-t.speed) 0) ∧
      t.dlyCnt.toNat = s.cfg.rampStepDelayMs ∧
      t = { s.popEvent with
        curSpeed := t.curSpeed, dutyA := t.dutyA, dutyB := t.dutyB, pwmWr := true, dlyCnt := t.dlyCnt, presc := 0,
        state := .rampWait }

/-- R133: the delay after a ramp step ticks and then goes back to `RAMP_STEP`. -/
def Obligations.RampWaitArm : Prop :=
  ∀ s : State, s.state = .rampWait → quietEvent s.nextEvent = true →
    step s = .next { s.popEvent with
      pwmWr := false, dlyCnt := s.tick.dlyCnt, presc := s.tick.presc,
      state := if s.tickDone then .rampStep else .rampWait }

/-- R152: the `STOP` arm zeroes the speed and both channels at once and loads the brake pause, whatever `resume` is. -/
def Obligations.StopArmZeroes : Prop :=
  ∀ s : State, s.state = .stop → quietEvent s.nextEvent = true →
    ∃ t, step s = .next t ∧ t.dlyCnt.toNat = s.cfg.reverseBrakeMs ∧
      t = { s.popEvent with
        curSpeed := 0, dutyA := 0, dutyB := 0, pwmWr := true, dlyCnt := t.dlyCnt, presc := 0, state := .brakeWait }

/-- R158: the brake pause ticks; at its end it resumes the ramp when `resume = 1`, else returns to `IDLE`; no event. -/
def Obligations.BrakeWaitArm : Prop :=
  ∀ s : State, s.state = .brakeWait → quietEvent s.nextEvent = true →
    step s = .next { s.popEvent with
      pwmWr := false, dlyCnt := s.tick.dlyCnt, presc := s.tick.presc,
      state := if s.tickDone then (if s.resume then .rampStep else .idle) else .brakeWait }

/-! ## The delay timer -/

/-- R156: a load sets the counter and restarts the prescaler; both delay lengths fit the counter. -/
def Obligations.DelayLoadRestartsPrescaler : Prop :=
  (∀ (s : State) (n : Nat), 1 ≤ n → n ≤ 2047 →
    (s.delayLoad n).dlyCnt.toNat = n ∧ (s.delayLoad n).presc = 0 ∧
    s.delayLoad n = { s with dlyCnt := (s.delayLoad n).dlyCnt, presc := 0 }) ∧
  (∀ c : Config, 1 ≤ c.rampStepDelayMs ∧ c.rampStepDelayMs ≤ 2047 ∧ 1 ≤ c.reverseBrakeMs ∧ c.reverseBrakeMs ≤ 2047)

/-- R157: the tick. At the last cycle of a millisecond the prescaler restarts, the counter falls by one without wrapping, and
`done` is whether it was 1; at every other cycle of the prescaler's range it counts one cycle. Nothing else changes. -/
def Obligations.TickCountsOneCycle : Prop :=
  ∀ s : State,
    (s.presc = s.cfg.clkPerMs - 1 → 1 ≤ s.dlyCnt.toNat →
      s.tick.presc = 0 ∧ s.tick.dlyCnt.toNat = s.dlyCnt.toNat - 1 ∧ (s.tickDone = true ↔ s.dlyCnt.toNat = 1)) ∧
    (s.presc < s.cfg.clkPerMs - 1 →
      s.tick.presc = s.presc + 1 ∧ s.tick.dlyCnt = s.dlyCnt ∧ s.tickDone = false) ∧
    s.tick = { s with dlyCnt := s.tick.dlyCnt, presc := s.tick.presc }

/-- R159: a wait state with `n` milliseconds loaded lasts exactly `n · CLK_PER_MS` quiet edges, with no event; the last of
them leaves it for the next arm, the timer at zero and the speed unchanged. -/
def Obligations.DelayLastsExactly : Prop :=
  ∀ s : State, s.state = .revWait ∨ s.state = .brakeWait ∨ s.state = .rampWait → 1 ≤ s.dlyCnt.toNat → s.presc = 0 →
    s.quietFor (s.dlyCnt.toNat * s.cfg.clkPerMs) = true →
    (∀ j, j < s.dlyCnt.toNat * s.cfg.clkPerMs →
      ∃ t : State, Host.Core.run Sys2Proof.core j s = .next t ∧ t.state = s.state ∧ (1 ≤ j → t.pwmWr = false)) ∧
    ∃ t : State, Host.Core.run Sys2Proof.core (s.dlyCnt.toNat * s.cfg.clkPerMs) s = .next t ∧ t.pwmWr = false ∧
      t.dlyCnt = 0 ∧ t.presc = 0 ∧ t.curSpeed = s.curSpeed ∧ t.dutyA = s.dutyA ∧ t.dutyB = s.dutyB ∧
      (s.state = .revWait → t.state = if s.speed = 0 then .stop else .revStep) ∧
      (s.state = .brakeWait → t.state = if s.resume then .rampStep else .idle) ∧
      (s.state = .rampWait → t.state = .rampStep)

/-! ## Whole commands, edge by edge -/

/-- R231: after reset, with no fault, edge 1 writes `(0, 0)`, the brake pause ends at edge 1 + Bk, and until then the block is
busy, so a command can be accepted at edge 2 + Bk at the earliest. -/
def Obligations.ResetSequenceRuns : Prop :=
  ∀ s : State, s.atReset → s.quietFor (1 + s.cfg.brakeEdges) = true →
    (∀ j, j < 1 + s.cfg.brakeEdges → ∃ t : State, Host.Core.run Sys2Proof.core j s = .next t ∧ t.busy = true ∧
      t.cmdReady = false) ∧
    (∃ t : State, Host.Core.run Sys2Proof.core (1 + s.cfg.brakeEdges) s = .next t ∧ t.state = .idle ∧ t.cmdReady = true ∧
      t.speed = 0) ∧
    writeTrace (1 + s.cfg.brakeEdges) 0 s = [⟨1, 0, 0⟩]

/-- R153, R155: a `STOP` accepted at edge `a`, from any speed, makes the one event `(0, 0)` after edge `a + 1`, is busy for
1 + Bk edges, and is in `IDLE` with speed 0 after edge `a + 1 + Bk`. -/
def Obligations.StopRunsEdgeByEdge : Prop :=
  ∀ (s : State) (n : Nat), s.accepts .stop → s.popEvent.quietFor (stopBusyEdges s.cfg) = true →
    (∀ j, 1 ≤ j → j ≤ stopBusyEdges s.cfg → ∃ t : State, Host.Core.run Sys2Proof.core j s = .next t ∧ t.busy = true) ∧
    (∃ t : State, Host.Core.run Sys2Proof.core (1 + stopBusyEdges s.cfg) s = .next t ∧ t.state = .idle ∧ t.speed = 0 ∧
      t.target = 0 ∧ t.dutyA = 0 ∧ t.dutyB = 0 ∧ t.resume = false) ∧
    writeTrace (1 + stopBusyEdges s.cfg) n s = [⟨n + 2, 0, 0⟩]

/-- R139, R135, R250: for every 16-bit request, a `SET_TARGET` accepted with no reset and no fault on the way is busy for
exactly the edges R250 gives and then is in `IDLE` with the speed at the clamped request, both duties projecting it, and the
last edge the write of it. -/
def Obligations.SetTargetReachesClampedSpeed : Prop :=
  ∀ (s : State) (sp : SpeedField), s.accepts (.setTarget sp) →
    s.popEvent.quietFor (setTargetBusyEdges s.cfg s.speed (clamp s.cfg (requested sp))) = true →
    (∀ j, 1 ≤ j → j ≤ setTargetBusyEdges s.cfg s.speed (clamp s.cfg (requested sp)) →
      ∃ t : State, Host.Core.run Sys2Proof.core j s = .next t ∧ t.busy = true) ∧
    ∃ t : State,
      Host.Core.run Sys2Proof.core (1 + setTargetBusyEdges s.cfg s.speed (clamp s.cfg (requested sp))) s = .next t ∧
      t.state = .idle ∧ t.speedOut.toInt = max (-(s.cfg.maxSpeed : Int)) (min (s.cfg.maxSpeed : Int) sp.toInt) ∧
      t.target = t.speed ∧ (t.dutyA.toNat : Int) = max t.speed 0 ∧ (t.dutyB.toNat : Int) = max (-t.speed) 0 ∧ t.pwmWr = true

/-- R134, no reversal: the write trace of a whole `SET_TARGET` is the rule's table, event for event and edge for edge. -/
def Obligations.DirectRampWriteTrace : Prop :=
  ∀ (s : State) (sp : SpeedField) (n : Nat), s.accepts (.setTarget sp) →
    reversal s.speed (clamp s.cfg (requested sp)) = false →
    s.popEvent.quietFor (1 + (clamp s.cfg (requested sp) - s.speed).natAbs * s.cfg.stepPeriod) = true →
    writeTrace (1 + (1 + (clamp s.cfg (requested sp) - s.speed).natAbs * s.cfg.stepPeriod)) n s =
      rampEvents s.cfg.stepPeriod (n + 2) s.speed (sgn (clamp s.cfg (requested sp) - s.speed))
        (clamp s.cfg (requested sp) - s.speed).natAbs ++
      [projected (n + 2 + (clamp s.cfg (requested sp) - s.speed).natAbs * s.cfg.stepPeriod) (clamp s.cfg (requested sp))]

/-- R134, reversal: the write trace of a whole reversing `SET_TARGET` is the rule's table: the reversal ramp to 0, the stop's
zero-write, a brake pause without an event, the ramp to the target, the final write. -/
def Obligations.ReversalWriteTrace : Prop :=
  ∀ (s : State) (sp : SpeedField) (n : Nat), s.accepts (.setTarget sp) →
    reversal s.speed (clamp s.cfg (requested sp)) = true →
    s.popEvent.quietFor (setTargetBusyEdges s.cfg s.speed (clamp s.cfg (requested sp))) = true →
    writeTrace (1 + setTargetBusyEdges s.cfg s.speed (clamp s.cfg (requested sp))) n s =
      setTargetEvents s.cfg (n + 1) s.speed (clamp s.cfg (requested sp))

/-! ## Properties of every step -/

/-- R125: `cur_speed` changes only by one, in the two step arms, or is set to 0 by the `STOP` arm or by reset. -/
def Obligations.SpeedChangesByOne : Prop :=
  ∀ s t : State, step s = .next t →
    t.speed = s.speed ∨
    ((s.state = .revStep ∨ s.state = .rampStep) ∧ (t.speed = s.speed + 1 ∨ t.speed = s.speed - 1)) ∨
    (t.speed = 0 ∧ (s.state = .stop ∨ ∃ inp, s.nextEvent = .edge inp ∧ inp.rst = true))

/-- R180, R183: after an edge with the strobe up, the arm was one of the three write arms and, from speeds in
range, the two duties are exactly the projection of the speed `cur_speed` took at that edge; with the strobe down, the duties
hold or were reset. -/
def Obligations.EventsComeFromWriteArms : Prop :=
  ∀ s t : State, step s = .next t → isEdge s.nextEvent = true →
    (t.pwmWr = true →
      (s.state = .revStep ∨ s.state = .stop ∨ s.state = .rampStep) ∧
      (s.SpeedsInRange → (t.dutyA.toNat : Int) = max t.speed 0 ∧ (t.dutyB.toNat : Int) = max (-t.speed) 0)) ∧
    (t.pwmWr = false → (t.dutyA = s.dutyA ∧ t.dutyB = s.dutyB) ∨ t.atReset)

/-- R181: two PWM update events are always at least two edges apart. -/
def Obligations.EventsAreTwoEdgesApart : Prop :=
  ∀ s t : State, StepInvariant s → s.pwmWr = true → step s = .next t → isEdge s.nextEvent = true → t.pwmWr = false

/-- R41 and what its induction needs hold after reset. -/
def Obligations.ResetMeetsInvariant : Prop :=
  StepInvariant State.reset ∧ ∀ s : State, s.atReset → StepInvariant s

/-- R41 and what its induction needs are kept by every step of every state that meets them, whatever the inputs. -/
def Obligations.StepKeepsInvariant : Prop :=
  ∀ s t : State, StepInvariant s → step s = .next t → StepInvariant t

/-- R41: the six invariants hold in every state reachable from reset, in every legal configuration and under every sequence of
inputs. -/
def Obligations.ListedInvariantsAlwaysHold : Prop :=
  ∀ (k : Nat) (s t : State), s.atReset → Host.Core.run Sys2Proof.core k s = .next t → ListedInvariants t

/-- R138's core, R123, R128: in the ramp states the speed and the target never have opposite signs, after reset and after
every step; so within a `SET_TARGET` the sign changes only across the stop and its brake pause. -/
def Obligations.RampNeverCrossesZero : Prop :=
  (∀ s : State, s.atReset → s.RampsOnOneSide) ∧
  (∀ s t : State, StepInvariant s → s.RampsOnOneSide → step s = .next t → t.RampsOnOneSide)

/-! ## Programs -/

/-- R86: each pseudo-command expands to the one command of the table, with the request the table names; an operand outside its
range has no expansion. -/
def Obligations.PseudoCommandsExpand : Prop :=
  (∀ n : Nat, n ≤ 32767 → ∃ sp, Pseudo.expand (.forward n) = some (.setTarget sp) ∧ requested sp = n) ∧
  (∀ n : Nat, n ≤ 32768 → ∃ sp, Pseudo.expand (.reverse n) = some (.setTarget sp) ∧ requested sp = -n) ∧
  (∀ n : Nat, 32767 < n → Pseudo.expand (.forward n) = none) ∧
  (∀ n : Nat, 32768 < n → Pseudo.expand (.reverse n) = none) ∧
  (∃ sp, Pseudo.expand .coast = some (.setTarget sp) ∧ requested sp = 0) ∧
  Pseudo.expand .brake = some .stop ∧
  (∃ sp, Pseudo.expand .fullForward = some (.setTarget sp) ∧ requested sp = 32767 ∧ ∀ c, clamp c (requested sp) = c.maxSpeed) ∧
  (∃ sp, Pseudo.expand .fullReverse = some (.setTarget sp) ∧ requested sp = -32768 ∧
    ∀ c, clamp c (requested sp) = -(c.maxSpeed : Int))

/-- R83 to R86: a program that assembles holds no reserved opcode and no accessor, and gives the host, line by line, a word
that decodes to the command, a word that decodes to the pseudo-command's expansion, or the directive itself. -/
def Obligations.AssembledProgramsAreAllowed : Prop :=
  ∀ (ls : List Line) (hs : List HostLine), assembleProgram ls = .ok hs →
    (∀ i, Line.cmd i ∈ ls → i.allowedInProgram = true) ∧ hs.length = ls.length ∧
    (∀ (k : Nat) (i : Instr), ls[k]? = some (.cmd i) → ∃ w, hs[k]? = some (.offer w) ∧ decode w = i) ∧
    (∀ (k : Nat) (p : Pseudo), ls[k]? = some (.pseudo p) →
      ∃ i w, p.expand = some i ∧ hs[k]? = some (.offer w) ∧ decode w = i) ∧
    (∀ k : Nat, ls[k]? = some .waitIdle → hs[k]? = some .waitIdle) ∧
    (∀ k n : Nat, ls[k]? = some (.hold n) → hs[k]? = some (.hold n)) ∧
    (∀ w, HostLine.offer w ∈ hs → decode w ≠ .rsvd)
end

