-- ==== Sys2Proof/Laws/State.lean ====
section
/-! SUPPORT. One lemma per field per named update of the state, true by unfolding the update once, so that no proof
unfolds a record update again; and the same for the two registers read as integers. -/

namespace Sys2Proof.Machine

variable (s : State)

/-! ### `goto` -/

@[simp] theorem State.goto_cfg (q : SeqState) : (s.goto q).cfg = s.cfg := rfl
@[simp] theorem State.goto_curSpeed (q : SeqState) : (s.goto q).curSpeed = s.curSpeed := rfl
@[simp] theorem State.goto_tgtSpeed (q : SeqState) : (s.goto q).tgtSpeed = s.tgtSpeed := rfl
@[simp] theorem State.goto_state (q : SeqState) : (s.goto q).state = q := rfl
@[simp] theorem State.goto_resume (q : SeqState) : (s.goto q).resume = s.resume := rfl
@[simp] theorem State.goto_dlyCnt (q : SeqState) : (s.goto q).dlyCnt = s.dlyCnt := rfl
@[simp] theorem State.goto_presc (q : SeqState) : (s.goto q).presc = s.presc := rfl
@[simp] theorem State.goto_dutyA (q : SeqState) : (s.goto q).dutyA = s.dutyA := rfl
@[simp] theorem State.goto_dutyB (q : SeqState) : (s.goto q).dutyB = s.dutyB := rfl
@[simp] theorem State.goto_pwmWr (q : SeqState) : (s.goto q).pwmWr = s.pwmWr := rfl
@[simp] theorem State.goto_fault (q : SeqState) : (s.goto q).fault = s.fault := rfl
@[simp] theorem State.goto_pending (q : SeqState) : (s.goto q).pending = s.pending := rfl
@[simp] theorem State.goto_freeDraws (q : SeqState) : (s.goto q).freeDraws = s.freeDraws := rfl
@[simp] theorem State.goto_hostResult (q : SeqState) : (s.goto q).hostResult = s.hostResult := rfl
@[simp] theorem State.goto_speed (q : SeqState) : (s.goto q).speed = s.speed := rfl
@[simp] theorem State.goto_target (q : SeqState) : (s.goto q).target = s.target := rfl
@[simp] theorem State.goto_tickDone (q : SeqState) : (s.goto q).tickDone = s.tickDone := rfl

/-! ### `setSpeed` -/

@[simp] theorem State.setSpeed_cfg (v : Int) : (s.setSpeed v).cfg = s.cfg := rfl
@[simp] theorem State.setSpeed_curSpeed (v : Int) : (s.setSpeed v).curSpeed = BitVec.ofInt 10 v := rfl
@[simp] theorem State.setSpeed_tgtSpeed (v : Int) : (s.setSpeed v).tgtSpeed = s.tgtSpeed := rfl
@[simp] theorem State.setSpeed_state (v : Int) : (s.setSpeed v).state = s.state := rfl
@[simp] theorem State.setSpeed_resume (v : Int) : (s.setSpeed v).resume = s.resume := rfl
@[simp] theorem State.setSpeed_dlyCnt (v : Int) : (s.setSpeed v).dlyCnt = s.dlyCnt := rfl
@[simp] theorem State.setSpeed_presc (v : Int) : (s.setSpeed v).presc = s.presc := rfl
@[simp] theorem State.setSpeed_dutyA (v : Int) : (s.setSpeed v).dutyA = s.dutyA := rfl
@[simp] theorem State.setSpeed_dutyB (v : Int) : (s.setSpeed v).dutyB = s.dutyB := rfl
@[simp] theorem State.setSpeed_pwmWr (v : Int) : (s.setSpeed v).pwmWr = s.pwmWr := rfl
@[simp] theorem State.setSpeed_fault (v : Int) : (s.setSpeed v).fault = s.fault := rfl
@[simp] theorem State.setSpeed_pending (v : Int) : (s.setSpeed v).pending = s.pending := rfl
@[simp] theorem State.setSpeed_freeDraws (v : Int) : (s.setSpeed v).freeDraws = s.freeDraws := rfl
@[simp] theorem State.setSpeed_hostResult (v : Int) : (s.setSpeed v).hostResult = s.hostResult := rfl
@[simp] theorem State.setSpeed_target (v : Int) : (s.setSpeed v).target = s.target := rfl
@[simp] theorem State.setSpeed_tickDone (v : Int) : (s.setSpeed v).tickDone = s.tickDone := rfl

/-! ### `latchTarget` -/

@[simp] theorem State.latchTarget_cfg (v : Int) (r : Bool) : (s.latchTarget v r).cfg = s.cfg := rfl
@[simp] theorem State.latchTarget_curSpeed (v : Int) (r : Bool) : (s.latchTarget v r).curSpeed = s.curSpeed := rfl
@[simp] theorem State.latchTarget_tgtSpeed (v : Int) (r : Bool) : (s.latchTarget v r).tgtSpeed = BitVec.ofInt 10 v := rfl
@[simp] theorem State.latchTarget_state (v : Int) (r : Bool) : (s.latchTarget v r).state = s.state := rfl
@[simp] theorem State.latchTarget_resume (v : Int) (r : Bool) : (s.latchTarget v r).resume = r := rfl
@[simp] theorem State.latchTarget_dlyCnt (v : Int) (r : Bool) : (s.latchTarget v r).dlyCnt = s.dlyCnt := rfl
@[simp] theorem State.latchTarget_presc (v : Int) (r : Bool) : (s.latchTarget v r).presc = s.presc := rfl
@[simp] theorem State.latchTarget_dutyA (v : Int) (r : Bool) : (s.latchTarget v r).dutyA = s.dutyA := rfl
@[simp] theorem State.latchTarget_dutyB (v : Int) (r : Bool) : (s.latchTarget v r).dutyB = s.dutyB := rfl
@[simp] theorem State.latchTarget_pwmWr (v : Int) (r : Bool) : (s.latchTarget v r).pwmWr = s.pwmWr := rfl
@[simp] theorem State.latchTarget_fault (v : Int) (r : Bool) : (s.latchTarget v r).fault = s.fault := rfl
@[simp] theorem State.latchTarget_pending (v : Int) (r : Bool) : (s.latchTarget v r).pending = s.pending := rfl
@[simp] theorem State.latchTarget_freeDraws (v : Int) (r : Bool) : (s.latchTarget v r).freeDraws = s.freeDraws := rfl
@[simp] theorem State.latchTarget_hostResult (v : Int) (r : Bool) : (s.latchTarget v r).hostResult = s.hostResult := rfl
@[simp] theorem State.latchTarget_speed (v : Int) (r : Bool) : (s.latchTarget v r).speed = s.speed := rfl
@[simp] theorem State.latchTarget_tickDone (v : Int) (r : Bool) : (s.latchTarget v r).tickDone = s.tickDone := rfl

/-! ### `emit` -/

@[simp] theorem State.emit_cfg (v : Int) : (s.emit v).cfg = s.cfg := rfl
@[simp] theorem State.emit_curSpeed (v : Int) : (s.emit v).curSpeed = s.curSpeed := rfl
@[simp] theorem State.emit_tgtSpeed (v : Int) : (s.emit v).tgtSpeed = s.tgtSpeed := rfl
@[simp] theorem State.emit_state (v : Int) : (s.emit v).state = s.state := rfl
@[simp] theorem State.emit_resume (v : Int) : (s.emit v).resume = s.resume := rfl
@[simp] theorem State.emit_dlyCnt (v : Int) : (s.emit v).dlyCnt = s.dlyCnt := rfl
@[simp] theorem State.emit_presc (v : Int) : (s.emit v).presc = s.presc := rfl
@[simp] theorem State.emit_dutyA (v : Int) : (s.emit v).dutyA = BitVec.ofInt 9 (max v 0) := rfl
@[simp] theorem State.emit_dutyB (v : Int) : (s.emit v).dutyB = BitVec.ofInt 9 (max (-v) 0) := rfl
@[simp] theorem State.emit_pwmWr (v : Int) : (s.emit v).pwmWr = true := rfl
@[simp] theorem State.emit_fault (v : Int) : (s.emit v).fault = s.fault := rfl
@[simp] theorem State.emit_pending (v : Int) : (s.emit v).pending = s.pending := rfl
@[simp] theorem State.emit_freeDraws (v : Int) : (s.emit v).freeDraws = s.freeDraws := rfl
@[simp] theorem State.emit_hostResult (v : Int) : (s.emit v).hostResult = s.hostResult := rfl
@[simp] theorem State.emit_speed (v : Int) : (s.emit v).speed = s.speed := rfl
@[simp] theorem State.emit_target (v : Int) : (s.emit v).target = s.target := rfl
@[simp] theorem State.emit_tickDone (v : Int) : (s.emit v).tickDone = s.tickDone := rfl

/-! ### `clearStrobe` -/

@[simp] theorem State.clearStrobe_cfg : (s.clearStrobe).cfg = s.cfg := rfl
@[simp] theorem State.clearStrobe_curSpeed : (s.clearStrobe).curSpeed = s.curSpeed := rfl
@[simp] theorem State.clearStrobe_tgtSpeed : (s.clearStrobe).tgtSpeed = s.tgtSpeed := rfl
@[simp] theorem State.clearStrobe_state : (s.clearStrobe).state = s.state := rfl
@[simp] theorem State.clearStrobe_resume : (s.clearStrobe).resume = s.resume := rfl
@[simp] theorem State.clearStrobe_dlyCnt : (s.clearStrobe).dlyCnt = s.dlyCnt := rfl
@[simp] theorem State.clearStrobe_presc : (s.clearStrobe).presc = s.presc := rfl
@[simp] theorem State.clearStrobe_dutyA : (s.clearStrobe).dutyA = s.dutyA := rfl
@[simp] theorem State.clearStrobe_dutyB : (s.clearStrobe).dutyB = s.dutyB := rfl
@[simp] theorem State.clearStrobe_pwmWr : (s.clearStrobe).pwmWr = false := rfl
@[simp] theorem State.clearStrobe_fault : (s.clearStrobe).fault = s.fault := rfl
@[simp] theorem State.clearStrobe_pending : (s.clearStrobe).pending = s.pending := rfl
@[simp] theorem State.clearStrobe_freeDraws : (s.clearStrobe).freeDraws = s.freeDraws := rfl
@[simp] theorem State.clearStrobe_hostResult : (s.clearStrobe).hostResult = s.hostResult := rfl
@[simp] theorem State.clearStrobe_speed : (s.clearStrobe).speed = s.speed := rfl
@[simp] theorem State.clearStrobe_target : (s.clearStrobe).target = s.target := rfl
@[simp] theorem State.clearStrobe_tickDone : (s.clearStrobe).tickDone = s.tickDone := rfl

/-! ### `delayLoad` -/

@[simp] theorem State.delayLoad_cfg (n : Nat) : (s.delayLoad n).cfg = s.cfg := rfl
@[simp] theorem State.delayLoad_curSpeed (n : Nat) : (s.delayLoad n).curSpeed = s.curSpeed := rfl
@[simp] theorem State.delayLoad_tgtSpeed (n : Nat) : (s.delayLoad n).tgtSpeed = s.tgtSpeed := rfl
@[simp] theorem State.delayLoad_state (n : Nat) : (s.delayLoad n).state = s.state := rfl
@[simp] theorem State.delayLoad_resume (n : Nat) : (s.delayLoad n).resume = s.resume := rfl
@[simp] theorem State.delayLoad_dlyCnt (n : Nat) : (s.delayLoad n).dlyCnt = BitVec.ofNat 11 n := rfl
@[simp] theorem State.delayLoad_presc (n : Nat) : (s.delayLoad n).presc = 0 := rfl
@[simp] theorem State.delayLoad_dutyA (n : Nat) : (s.delayLoad n).dutyA = s.dutyA := rfl
@[simp] theorem State.delayLoad_dutyB (n : Nat) : (s.delayLoad n).dutyB = s.dutyB := rfl
@[simp] theorem State.delayLoad_pwmWr (n : Nat) : (s.delayLoad n).pwmWr = s.pwmWr := rfl
@[simp] theorem State.delayLoad_fault (n : Nat) : (s.delayLoad n).fault = s.fault := rfl
@[simp] theorem State.delayLoad_pending (n : Nat) : (s.delayLoad n).pending = s.pending := rfl
@[simp] theorem State.delayLoad_freeDraws (n : Nat) : (s.delayLoad n).freeDraws = s.freeDraws := rfl
@[simp] theorem State.delayLoad_hostResult (n : Nat) : (s.delayLoad n).hostResult = s.hostResult := rfl
@[simp] theorem State.delayLoad_speed (n : Nat) : (s.delayLoad n).speed = s.speed := rfl
@[simp] theorem State.delayLoad_target (n : Nat) : (s.delayLoad n).target = s.target := rfl

/-! ### `raiseFault` -/

@[simp] theorem State.raiseFault_cfg : (s.raiseFault).cfg = s.cfg := rfl
@[simp] theorem State.raiseFault_curSpeed : (s.raiseFault).curSpeed = s.curSpeed := rfl
@[simp] theorem State.raiseFault_tgtSpeed : (s.raiseFault).tgtSpeed = s.tgtSpeed := rfl
@[simp] theorem State.raiseFault_state : (s.raiseFault).state = .fault := rfl
@[simp] theorem State.raiseFault_resume : (s.raiseFault).resume = s.resume := rfl
@[simp] theorem State.raiseFault_dlyCnt : (s.raiseFault).dlyCnt = s.dlyCnt := rfl
@[simp] theorem State.raiseFault_presc : (s.raiseFault).presc = s.presc := rfl
@[simp] theorem State.raiseFault_dutyA : (s.raiseFault).dutyA = s.dutyA := rfl
@[simp] theorem State.raiseFault_dutyB : (s.raiseFault).dutyB = s.dutyB := rfl
@[simp] theorem State.raiseFault_pwmWr : (s.raiseFault).pwmWr = false := rfl
@[simp] theorem State.raiseFault_fault : (s.raiseFault).fault = true := rfl
@[simp] theorem State.raiseFault_pending : (s.raiseFault).pending = s.pending := rfl
@[simp] theorem State.raiseFault_freeDraws : (s.raiseFault).freeDraws = s.freeDraws := rfl
@[simp] theorem State.raiseFault_hostResult : (s.raiseFault).hostResult = s.hostResult := rfl
@[simp] theorem State.raiseFault_speed : (s.raiseFault).speed = s.speed := rfl
@[simp] theorem State.raiseFault_target : (s.raiseFault).target = s.target := rfl
@[simp] theorem State.raiseFault_tickDone : (s.raiseFault).tickDone = s.tickDone := rfl

/-! ### `resetRegs` -/

@[simp] theorem State.resetRegs_cfg : (s.resetRegs).cfg = s.cfg := rfl
@[simp] theorem State.resetRegs_curSpeed : (s.resetRegs).curSpeed = 0 := rfl
@[simp] theorem State.resetRegs_tgtSpeed : (s.resetRegs).tgtSpeed = 0 := rfl
@[simp] theorem State.resetRegs_state : (s.resetRegs).state = .stop := rfl
@[simp] theorem State.resetRegs_resume : (s.resetRegs).resume = false := rfl
@[simp] theorem State.resetRegs_dlyCnt : (s.resetRegs).dlyCnt = 0 := rfl
@[simp] theorem State.resetRegs_presc : (s.resetRegs).presc = 0 := rfl
@[simp] theorem State.resetRegs_dutyA : (s.resetRegs).dutyA = 0 := rfl
@[simp] theorem State.resetRegs_dutyB : (s.resetRegs).dutyB = 0 := rfl
@[simp] theorem State.resetRegs_pwmWr : (s.resetRegs).pwmWr = false := rfl
@[simp] theorem State.resetRegs_fault : (s.resetRegs).fault = false := rfl
@[simp] theorem State.resetRegs_pending : (s.resetRegs).pending = s.pending := rfl
@[simp] theorem State.resetRegs_freeDraws : (s.resetRegs).freeDraws = s.freeDraws := rfl
@[simp] theorem State.resetRegs_hostResult : (s.resetRegs).hostResult = s.hostResult := rfl
@[simp] theorem State.resetRegs_speed : (s.resetRegs).speed = 0 := rfl
@[simp] theorem State.resetRegs_target : (s.resetRegs).target = 0 := rfl

/-! ### `giveHost` -/

@[simp] theorem State.giveHost_cfg (r : PortRead) : (s.giveHost r).cfg = s.cfg := rfl
@[simp] theorem State.giveHost_curSpeed (r : PortRead) : (s.giveHost r).curSpeed = s.curSpeed := rfl
@[simp] theorem State.giveHost_tgtSpeed (r : PortRead) : (s.giveHost r).tgtSpeed = s.tgtSpeed := rfl
@[simp] theorem State.giveHost_state (r : PortRead) : (s.giveHost r).state = s.state := rfl
@[simp] theorem State.giveHost_resume (r : PortRead) : (s.giveHost r).resume = s.resume := rfl
@[simp] theorem State.giveHost_dlyCnt (r : PortRead) : (s.giveHost r).dlyCnt = s.dlyCnt := rfl
@[simp] theorem State.giveHost_presc (r : PortRead) : (s.giveHost r).presc = s.presc := rfl
@[simp] theorem State.giveHost_dutyA (r : PortRead) : (s.giveHost r).dutyA = s.dutyA := rfl
@[simp] theorem State.giveHost_dutyB (r : PortRead) : (s.giveHost r).dutyB = s.dutyB := rfl
@[simp] theorem State.giveHost_pwmWr (r : PortRead) : (s.giveHost r).pwmWr = s.pwmWr := rfl
@[simp] theorem State.giveHost_fault (r : PortRead) : (s.giveHost r).fault = s.fault := rfl
@[simp] theorem State.giveHost_pending (r : PortRead) : (s.giveHost r).pending = s.pending := rfl
@[simp] theorem State.giveHost_freeDraws (r : PortRead) : (s.giveHost r).freeDraws = s.freeDraws := rfl
@[simp] theorem State.giveHost_hostResult (r : PortRead) : (s.giveHost r).hostResult = some r := rfl
@[simp] theorem State.giveHost_speed (r : PortRead) : (s.giveHost r).speed = s.speed := rfl
@[simp] theorem State.giveHost_target (r : PortRead) : (s.giveHost r).target = s.target := rfl
@[simp] theorem State.giveHost_tickDone (r : PortRead) : (s.giveHost r).tickDone = s.tickDone := rfl

/-! ### `place` -/

@[simp] theorem State.place_cfg (e : EnvEvent) : (s.place e).cfg = s.cfg := rfl
@[simp] theorem State.place_curSpeed (e : EnvEvent) : (s.place e).curSpeed = s.curSpeed := rfl
@[simp] theorem State.place_tgtSpeed (e : EnvEvent) : (s.place e).tgtSpeed = s.tgtSpeed := rfl
@[simp] theorem State.place_state (e : EnvEvent) : (s.place e).state = s.state := rfl
@[simp] theorem State.place_resume (e : EnvEvent) : (s.place e).resume = s.resume := rfl
@[simp] theorem State.place_dlyCnt (e : EnvEvent) : (s.place e).dlyCnt = s.dlyCnt := rfl
@[simp] theorem State.place_presc (e : EnvEvent) : (s.place e).presc = s.presc := rfl
@[simp] theorem State.place_dutyA (e : EnvEvent) : (s.place e).dutyA = s.dutyA := rfl
@[simp] theorem State.place_dutyB (e : EnvEvent) : (s.place e).dutyB = s.dutyB := rfl
@[simp] theorem State.place_pwmWr (e : EnvEvent) : (s.place e).pwmWr = s.pwmWr := rfl
@[simp] theorem State.place_fault (e : EnvEvent) : (s.place e).fault = s.fault := rfl
@[simp] theorem State.place_pending (e : EnvEvent) : (s.place e).pending = e :: s.pending := rfl
@[simp] theorem State.place_freeDraws (e : EnvEvent) : (s.place e).freeDraws = s.freeDraws := rfl
@[simp] theorem State.place_hostResult (e : EnvEvent) : (s.place e).hostResult = s.hostResult := rfl
@[simp] theorem State.place_speed (e : EnvEvent) : (s.place e).speed = s.speed := rfl
@[simp] theorem State.place_target (e : EnvEvent) : (s.place e).target = s.target := rfl
@[simp] theorem State.place_tickDone (e : EnvEvent) : (s.place e).tickDone = s.tickDone := rfl

/-! ### `tick` -/

@[simp] theorem State.tick_cfg : s.tick.cfg = s.cfg := by unfold State.tick; split <;> rfl
@[simp] theorem State.tick_curSpeed : s.tick.curSpeed = s.curSpeed := by unfold State.tick; split <;> rfl
@[simp] theorem State.tick_tgtSpeed : s.tick.tgtSpeed = s.tgtSpeed := by unfold State.tick; split <;> rfl
@[simp] theorem State.tick_state : s.tick.state = s.state := by unfold State.tick; split <;> rfl
@[simp] theorem State.tick_resume : s.tick.resume = s.resume := by unfold State.tick; split <;> rfl
@[simp] theorem State.tick_dutyA : s.tick.dutyA = s.dutyA := by unfold State.tick; split <;> rfl
@[simp] theorem State.tick_dutyB : s.tick.dutyB = s.dutyB := by unfold State.tick; split <;> rfl
@[simp] theorem State.tick_pwmWr : s.tick.pwmWr = s.pwmWr := by unfold State.tick; split <;> rfl
@[simp] theorem State.tick_fault : s.tick.fault = s.fault := by unfold State.tick; split <;> rfl
@[simp] theorem State.tick_pending : s.tick.pending = s.pending := by unfold State.tick; split <;> rfl
@[simp] theorem State.tick_freeDraws : s.tick.freeDraws = s.freeDraws := by unfold State.tick; split <;> rfl
@[simp] theorem State.tick_hostResult : s.tick.hostResult = s.hostResult := by unfold State.tick; split <;> rfl
@[simp] theorem State.tick_speed : s.tick.speed = s.speed := by unfold State.tick; split <;> rfl
@[simp] theorem State.tick_target : s.tick.target = s.target := by unfold State.tick; split <;> rfl

/-! ### `popEvent` -/

@[simp] theorem State.popEvent_cfg : s.popEvent.cfg = s.cfg := by unfold State.popEvent; split <;> rfl
@[simp] theorem State.popEvent_curSpeed : s.popEvent.curSpeed = s.curSpeed := by unfold State.popEvent; split <;> rfl
@[simp] theorem State.popEvent_tgtSpeed : s.popEvent.tgtSpeed = s.tgtSpeed := by unfold State.popEvent; split <;> rfl
@[simp] theorem State.popEvent_state : s.popEvent.state = s.state := by unfold State.popEvent; split <;> rfl
@[simp] theorem State.popEvent_resume : s.popEvent.resume = s.resume := by unfold State.popEvent; split <;> rfl
@[simp] theorem State.popEvent_dlyCnt : s.popEvent.dlyCnt = s.dlyCnt := by unfold State.popEvent; split <;> rfl
@[simp] theorem State.popEvent_presc : s.popEvent.presc = s.presc := by unfold State.popEvent; split <;> rfl
@[simp] theorem State.popEvent_dutyA : s.popEvent.dutyA = s.dutyA := by unfold State.popEvent; split <;> rfl
@[simp] theorem State.popEvent_dutyB : s.popEvent.dutyB = s.dutyB := by unfold State.popEvent; split <;> rfl
@[simp] theorem State.popEvent_pwmWr : s.popEvent.pwmWr = s.pwmWr := by unfold State.popEvent; split <;> rfl
@[simp] theorem State.popEvent_fault : s.popEvent.fault = s.fault := by unfold State.popEvent; split <;> rfl
@[simp] theorem State.popEvent_hostResult : s.popEvent.hostResult = s.hostResult := by unfold State.popEvent; split <;> rfl
@[simp] theorem State.popEvent_speed : s.popEvent.speed = s.speed := by unfold State.popEvent; split <;> rfl
@[simp] theorem State.popEvent_target : s.popEvent.target = s.target := by unfold State.popEvent; split <;> rfl
@[simp] theorem State.popEvent_tickDone : s.popEvent.tickDone = s.tickDone := by unfold State.popEvent; split <;> rfl

/-- Inside its range a speed write is exact (R21, R137): the register reads as the value written. -/
theorem State.setSpeed_speed {v : Int} (lo : -512 ≤ v) (hi : v ≤ 511) : (s.setSpeed v).speed = v := by
  simp only [State.speed, State.setSpeed_curSpeed, BitVec.toInt_ofInt]
  exact Int.bmod_eq_of_le (by omega) (by omega)

/-- Inside its range a target write is exact (R22, R137). -/
theorem State.latchTarget_target {v : Int} (r : Bool) (lo : -512 ≤ v) (hi : v ≤ 511) : (s.latchTarget v r).target = v := by
  simp only [State.target, State.latchTarget_tgtSpeed, BitVec.toInt_ofInt]
  exact Int.bmod_eq_of_le (by omega) (by omega)

/-- The value in `cur_speed` lies in the range of a 10-bit register (R9). -/
theorem State.speed_range : -512 ≤ s.speed ∧ s.speed ≤ 511 := by
  have := s.curSpeed.isLt
  simp only [State.speed, BitVec.toInt]
  split <;> omega

/-- The value in `tgt_speed` lies in the range of a 10-bit register (R9). -/
theorem State.target_range : -512 ≤ s.target ∧ s.target ≤ 511 := by
  have := s.tgtSpeed.isLt
  simp only [State.target, BitVec.toInt]
  split <;> omega

end Sys2Proof.Machine
end

