-- ==== Sys2Proof/Laws/Step.lean ====
section
/-! SUPPORT. What each shared operation and the step can do, said once: the sequencer's edge per state, an edge on which a
command waits, the inversion of the step, and the environment's fields. -/

namespace Sys2Proof.Machine

variable {s t : State}

/-! ### The sequencer's edge, state by state -/

theorem sequencerEdge_idle (accept : State → State) (h : s.state = .idle) :
    s.sequencerEdge accept = accept s.clearStrobe := by simp [State.sequencerEdge, h]

theorem sequencerEdge_revStep (accept : State → State) (h : s.state = .revStep) :
    s.sequencerEdge accept = armRevStep s.clearStrobe := by simp [State.sequencerEdge, h]

theorem sequencerEdge_revWait (accept : State → State) (h : s.state = .revWait) :
    s.sequencerEdge accept = armRevWait s.clearStrobe := by simp [State.sequencerEdge, h]

theorem sequencerEdge_stop (accept : State → State) (h : s.state = .stop) :
    s.sequencerEdge accept = armStop s.clearStrobe := by simp [State.sequencerEdge, h]

theorem sequencerEdge_brakeWait (accept : State → State) (h : s.state = .brakeWait) :
    s.sequencerEdge accept = armBrakeWait s.clearStrobe := by simp [State.sequencerEdge, h]

theorem sequencerEdge_rampStep (accept : State → State) (h : s.state = .rampStep) :
    s.sequencerEdge accept = armRampStep s.clearStrobe := by simp [State.sequencerEdge, h]

theorem sequencerEdge_rampWait (accept : State → State) (h : s.state = .rampWait) :
    s.sequencerEdge accept = armRampWait s.clearStrobe := by simp [State.sequencerEdge, h]

theorem sequencerEdge_fault (accept : State → State) (h : s.state = .fault) :
    s.sequencerEdge accept = s.clearStrobe := by simp [State.sequencerEdge, h, armFault]

/-- Outside `IDLE` the offered command's acceptance action does not run (R101). -/
theorem sequencerEdge_busy (accept : State → State) (h : s.state ≠ .idle) :
    s.sequencerEdge accept = s.sequencerEdge acceptNone := by
  unfold State.sequencerEdge
  split <;> first | rfl | exact absurd ‹_› h

/-! ### The commands -/

/-- Every command is some acceptance action at the sequencer's edge. -/
theorem exec_command {i : Instr} (h : i.isCommand = true) :
    ∃ accept : State → State, (accept = acceptNone ∨ (∃ req, accept = acceptSetTarget req) ∨ accept = acceptStop) ∧
      ∀ s, exec i s = .next (s.sequencerEdge accept) := by
  cases i with
  | nop => exact ⟨acceptNone, .inl rfl, fun _ => rfl⟩
  | setTarget sp => exact ⟨acceptSetTarget (requested sp), .inr (.inl ⟨_, rfl⟩), fun _ => rfl⟩
  | stop => exact ⟨acceptStop, .inr (.inr rfl), fun _ => rfl⟩
  | rsvd => exact ⟨acceptNone, .inl rfl, fun _ => rfl⟩
  | currentSpeed => simp [Instr.isCommand] at h
  | currentDirection => simp [Instr.isCommand] at h

/-- The decoder gives commands only (R82, R84). -/
theorem decode_isCommand (w : CmdWord) : (decode w).isCommand = true := by
  unfold decode
  split
  · rfl
  · split
    · rfl
    · split <;> rfl

/-! ### The environment's fields -/

theorem quietEvent_edge {e : EnvEvent} (h : quietEvent e = true) :
    ∃ inp, e = .edge inp ∧ inp.rst = false ∧ inp.pwmErr = false := by
  cases e with
  | edge inp => exact ⟨inp, rfl, by simpa [quietEvent] using h⟩
  | readSpeed => simp [quietEvent] at h
  | readDirection => simp [quietEvent] at h

/-- The environment of two states is the same. -/
def SameEnv (s t : State) : Prop := s.pending = t.pending ∧ s.freeDraws = t.freeDraws

theorem SameEnv.nextEvent (h : SameEnv s t) : s.nextEvent = t.nextEvent := by
  simp [State.nextEvent, h.1, h.2]

theorem SameEnv.popEvent (h : SameEnv s t) : SameEnv s.popEvent t.popEvent := by
  obtain ⟨hp, hf⟩ := h
  unfold State.popEvent
  rw [hp]
  split <;> simp [SameEnv, hf]

/-- How long the environment stays quiet depends on nothing but the environment. -/
theorem SameEnv.quietFor (k : Nat) (h : SameEnv s t) : s.quietFor k = t.quietFor k := by
  induction k generalizing s t with
  | zero => rfl
  | succ k ih => simp [State.quietFor, h.nextEvent, ih h.popEvent]

theorem SameEnv.noResetFor (k : Nat) (h : SameEnv s t) : s.noResetFor k = t.noResetFor k := by
  induction k generalizing s t with
  | zero => rfl
  | succ k ih => simp [State.noResetFor, h.nextEvent, ih h.popEvent]

/-- No arm and no acceptance action touches the environment, the configuration or the host's result. -/
theorem sequencerEdge_environment (accept : State → State)
    (ha : accept = acceptNone ∨ (∃ req, accept = acceptSetTarget req) ∨ accept = acceptStop) :
    (s.sequencerEdge accept).pending = s.pending ∧ (s.sequencerEdge accept).freeDraws = s.freeDraws ∧
      (s.sequencerEdge accept).cfg = s.cfg ∧ (s.sequencerEdge accept).hostResult = s.hostResult := by
  unfold State.sequencerEdge
  split
  · rcases ha with rfl | ⟨req, rfl⟩ | rfl <;> simp [acceptNone, acceptSetTarget, acceptStop]
  · simp [armRevStep, State.rampWrite]
  · unfold armRevWait; split <;> (try split) <;> simp
  · simp [armStop]
  · unfold armBrakeWait; split <;> (try split) <;> simp
  · unfold armRampStep; split <;> simp [State.rampWrite]
  · unfold armRampWait; split <;> simp
  · simp [armFault]

/-! ### The step -/

/-- An edge that neither reset nor a fault takes is the sequencer's edge with the offered command's acceptance action. -/
theorem clockEdge_cases (inp : Inputs) (p : State) :
    (inp.rst = true ∧ clockEdge inp p = .next p.resetRegs) ∨
    (inp.rst = false ∧ inp.pwmErr = true ∧ p.state ≠ .fault ∧ clockEdge inp p = .next p.raiseFault) ∨
    (inp.rst = false ∧ (inp.pwmErr = true → p.state = .fault) ∧
      ∃ accept : State → State,
        (accept = acceptNone ∨ (inp.cmdValid = true ∧ ((∃ req, accept = acceptSetTarget req) ∨ accept = acceptStop))) ∧
        clockEdge inp p = .next (p.sequencerEdge accept)) := by
  unfold clockEdge
  by_cases hr : inp.rst = true
  · exact .inl ⟨hr, by simp [hr]⟩
  by_cases hf : inp.pwmErr = true ∧ p.state ≠ .fault
  · exact .inr (.inl ⟨by simpa using hr, hf.1, hf.2, by simp [hr, hf.1, hf.2]⟩)
  have hb : ¬((inp.pwmErr && decide (p.state ≠ .fault)) = true) := by simpa using hf
  refine .inr (.inr ⟨by simpa using hr, fun he => by_contra fun hn => hf ⟨he, hn⟩, ?_⟩)
  rw [if_neg hr, if_neg hb]
  by_cases hv : inp.cmdValid = true
  · rw [if_pos hv]
    obtain ⟨accept, ha, he⟩ := exec_command (decode_isCommand (wordOf inp))
    exact ⟨accept, ha.imp id fun h => ⟨hv, h⟩, he p⟩
  · rw [if_neg hv]
    exact ⟨acceptNone, .inl rfl, rfl⟩

/-- Everything one step can do. -/
theorem step_cases (h : step s = .next t) :
    (∃ r, (s.nextEvent = .readSpeed ∨ s.nextEvent = .readDirection) ∧ t = s.popEvent.giveHost r) ∨
    (∃ inp, s.nextEvent = .edge inp ∧ inp.rst = true ∧ t = s.popEvent.resetRegs) ∨
    (∃ inp, s.nextEvent = .edge inp ∧ inp.rst = false ∧ inp.pwmErr = true ∧ s.state ≠ .fault ∧ t = s.popEvent.raiseFault) ∨
    (∃ inp, s.nextEvent = .edge inp ∧ inp.rst = false ∧ (inp.pwmErr = true → s.state = .fault) ∧
      ∃ accept : State → State,
        (accept = acceptNone ∨ (inp.cmdValid = true ∧ ((∃ req, accept = acceptSetTarget req) ∨ accept = acceptStop))) ∧
        t = s.popEvent.sequencerEdge accept) := by
  unfold step runEvent at h
  split at h
  · rename_i inp he
    rcases clockEdge_cases inp s.popEvent with ⟨hr, hc⟩ | ⟨hr, hp, hs, hc⟩ | ⟨hr, hp, accept, ha, hc⟩
    · rw [hc] at h; cases h; exact .inr (.inl ⟨inp, he, hr, rfl⟩)
    · rw [hc] at h; cases h; exact .inr (.inr (.inl ⟨inp, he, hr, hp, by simpa using hs, rfl⟩))
    · rw [hc] at h; cases h; exact .inr (.inr (.inr ⟨inp, he, hr, by simpa using hp, accept, ha, rfl⟩))
  · rename_i he; cases h; exact .inl ⟨_, .inl he, rfl⟩
  · rename_i he; cases h; exact .inl ⟨_, .inr he, rfl⟩

/-- While the block is busy or dead, a quiet edge runs the arm of the state, whatever stands on the command port. -/
theorem step_of_quiet_busy (hs : s.state ≠ .idle) (hq : quietEvent s.nextEvent = true) :
    step s = .next (s.popEvent.sequencerEdge acceptNone) := by
  obtain ⟨inp, he, hr, hp⟩ := quietEvent_edge hq
  have hs' : s.popEvent.state ≠ .idle := by simpa using hs
  simp only [step, runEvent, he]
  rcases clockEdge_cases inp s.popEvent with ⟨h, -⟩ | ⟨-, h, -⟩ | ⟨-, -, accept, -, hc⟩
  · simp [hr] at h
  · simp [hp] at h
  · rw [hc, sequencerEdge_busy accept hs']

/-- A step that accepts a command runs it. -/
theorem step_of_accepts {i : Instr} (h : s.accepts i) : step s = exec i s.popEvent := by
  obtain ⟨-, inp, he, hr, hp, hv, hd⟩ := h
  simp [step, runEvent, he, clockEdge, hr, hp, hv, hd]

/-- A list of placed edges, each quiet, keeps the environment quiet for its length. -/
theorem quietFor_of_pending {rest : List EnvEvent} (es : List EnvEvent) (h : s.pending = es ++ rest)
    (hq : ∀ e ∈ es, quietEvent e = true) : s.quietFor es.length = true := by
  induction es generalizing s with
  | nil => rfl
  | cons e es ih =>
    have hn : s.nextEvent = e := by simp [State.nextEvent, h]
    have hp : s.popEvent.pending = es ++ rest := by simp [State.popEvent, h]
    simp [State.quietFor, hn, hq e (by simp), ih hp fun e' he' => hq e' (by simp [he'])]

/-- R41 gives R180's domain. -/
theorem ListedInvariants.speedsInRange (h : ListedInvariants s) : s.SpeedsInRange := ⟨h.speedInRange, h.targetInRange⟩

/-- Running `k + 1` steps is a step and then `k` steps. -/
theorem run_succ (k : Nat) (h : step s = .next t) :
    Host.Core.run Sys2Proof.core (k + 1) s = Host.Core.run Sys2Proof.core k t := by
  have h' : Sys2Proof.core.step s = .next t := h
  simp only [Host.Core.run, h']

/-- Running `j + k` steps is `j` steps and then `k` steps. -/
theorem run_add (j k : Nat) (h : Host.Core.run Sys2Proof.core j s = .next t) :
    Host.Core.run Sys2Proof.core (j + k) s = Host.Core.run Sys2Proof.core k t := by
  induction j generalizing s with
  | zero => cases h; rw [Nat.zero_add]
  | succ j ih =>
    rw [Nat.succ_add]
    simp only [Host.Core.run] at h ⊢
    split at h
    · exact ih h
    · cases h
    · cases h

/-- A step on an edge adds that edge's events to the write trace. -/
theorem writeTrace_succ_edge (k n : Nat) (h : step s = .next t) (he : isEdge s.nextEvent = true) :
    writeTrace (k + 1) n s = eventsAfter (n + 1) t ++ writeTrace k (n + 1) t := by
  simp only [writeTrace, h, he, if_true]

/-- A quiet event is an edge. -/
theorem isEdge_of_quiet {e : EnvEvent} (h : quietEvent e = true) : isEdge e = true := by
  obtain ⟨inp, rfl, -⟩ := quietEvent_edge h
  rfl

end Sys2Proof.Machine
end

