-- ==== Sys2Proof/Laws/Ops.lean ====
section
/-! SUPPORT. What the delay timer, the projection and the comparators can do, said once for the provers to cite. -/

namespace Sys2Proof.Machine

variable {s : State}

theorem Config_clkPerMs_pos (c : Config) : 1 ≤ c.clkPerMs := Nat.succ_le_succ (Nat.zero_le _)

theorem Config_maxSpeed_cases (c : Config) : c.maxSpeed = 255 ∨ c.maxSpeed = 256 := by
  unfold Config.maxSpeed
  cases c.maxSpeedBuild <;> simp [MaxSpeed.value]

theorem Config_reverseBrakeMs_range (c : Config) : 1000 ≤ c.reverseBrakeMs ∧ c.reverseBrakeMs ≤ 2000 := by
  have := c.brakeOver1000.isLt
  simp only [Config.reverseBrakeMs]
  omega

/-- `⌈log2 n⌉` bits hold every number below `n`. -/
theorem le_two_pow_ceilLog2 (n : Nat) : n ≤ 2 ^ ceilLog2 n := by
  unfold ceilLog2
  split
  · simpa using ‹n ≤ 1›
  · have := @Nat.lt_log2_self (n - 1)
    omega

/-- `presc` is wide enough for its range: a value below `CLK_PER_MS` fits (R26). -/
theorem clkPerMs_le_prescWidth (c : Config) : c.clkPerMs ≤ 2 ^ c.prescWidth :=
  (le_two_pow_ceilLog2 _).trans (Nat.pow_le_pow_right (by decide) (le_max_right _ _))

/-- The projection is exact on every value a 10-bit speed can step to (R180). -/
theorem ofInt_duty_toNat {v : Int} (lo : 0 ≤ v) (hi : v ≤ 511) : ((BitVec.ofInt 9 v).toNat : Int) = v := by
  simp only [BitVec.toNat_ofInt]
  omega

theorem sgn_cases (v : Int) : (0 < v ∧ sgn v = 1) ∨ (v < 0 ∧ sgn v = -1) ∨ (v = 0 ∧ sgn v = 0) := by
  unfold sgn
  split
  · exact .inl ⟨‹_›, rfl⟩
  · split
    · exact .inr (.inl ⟨‹_›, rfl⟩)
    · exact .inr (.inr ⟨by omega, rfl⟩)

theorem stepDirection_cases (c t : Int) : (c < t ∧ stepDirection c t = 1) ∨ (t ≤ c ∧ stepDirection c t = -1) := by
  unfold stepDirection
  split
  · exact .inl ⟨‹_›, rfl⟩
  · exact .inr ⟨by omega, rfl⟩

/-- A clamped value is a legal speed of the configuration. -/
theorem clamp_le (c : Config) (v : Int) : -(c.maxSpeed : Int) ≤ clamp c v ∧ clamp c v ≤ c.maxSpeed := by
  unfold clamp
  omega

end Sys2Proof.Machine
end

