-- ==== Sys2Proof/Laws/PerInstr.lean ====
section
/-! SUPPORT. Per-instruction families: a statement about an instruction as syntax, and one lemma per constructor. -/

namespace Sys2Proof.Laws.OpcodeInWord

/-- The canonical word of an instruction carries its opcode in bits 17:16 and its operand in bits 15:0
(spec/30_encoding.md R80, R82); an instruction without an opcode has no word (R84). -/
def Statement (i : Instr) : Prop :=
  match i.opcode? with
  | some op => ∃ w, encode i = some w ∧ opField w = op ∧ speedField w = i.operandField
  | none => encode i = none

/-- The bits of a word made of fields (R80). -/
theorem getLsbD_cmdWord (op : OpField) (speed : SpeedField) (i : Nat) :
    (cmdWord op speed).getLsbD i = if i < 16 then speed.getLsbD i else op.getLsbD (i - 16) :=
  BitVec.getLsbD_append

/-- The fields of a word made of fields are those fields (R80). -/
theorem fields_cmdWord (op : OpField) (speed : SpeedField) :
    opField (cmdWord op speed) = op ∧ speedField (cmdWord op speed) = speed := by
  refine ⟨BitVec.eq_of_getLsbD_eq fun i hi => ?_, BitVec.eq_of_getLsbD_eq fun i hi => ?_⟩
  · simp only [opField, BitVec.getLsbD_extractLsb', getLsbD_cmdWord]
    simp [hi]
  · simp only [speedField, BitVec.getLsbD_extractLsb', getLsbD_cmdWord]
    simp [hi]

theorem nop : Statement .nop := ⟨_, rfl, fields_cmdWord _ _⟩

theorem setTarget (speed : SpeedField) : Statement (.setTarget speed) := ⟨_, rfl, fields_cmdWord _ _⟩

theorem stop : Statement .stop := ⟨_, rfl, fields_cmdWord _ _⟩

theorem rsvd : Statement .rsvd := ⟨_, rfl, fields_cmdWord _ _⟩

theorem currentSpeed : Statement .currentSpeed := rfl

theorem currentDirection : Statement .currentDirection := rfl

end Sys2Proof.Laws.OpcodeInWord
end

