-- ==== Sys2Proof/Tests/Slice0.lean ====
section
/-! SUPPORT. The model's own tests: words and vectors of spec/95_test_vectors.md and spec/30_encoding.md, one step each; the
smoke tests of WellFormed and of the elaboration check; and a witness for the hypotheses of every statement. -/

namespace Sys2Proof.Machine

/-! ## Helpers -/

/-- The default configuration of 95_test_vectors.md: 255, 40 ms, 1000 ms, 1 edge per ms. -/
def testCfg : Config := ⟨.speed255, 0, 0, 20000, 0⟩

/-- The same with `MAX_SPEED = 256`. -/
def testCfg256 : Config := ⟨.speed256, 0, 0, 20000, 0⟩

/-- The same with `CLK_PER_MS = 3` (95 V5). -/
def testCfgClk3 : Config := ⟨.speed255, 0, 2, 20000, 0⟩

/-- A block in state `q` with speed `v` and target `w`, its duties projecting `v`. -/
def testState (c : Config) (q : SeqState) (v w : Int) : State :=
  { State.reset with
    cfg := c, state := q, curSpeed := BitVec.ofInt 10 v, tgtSpeed := BitVec.ofInt 10 w,
    dutyA := BitVec.ofInt 9 (max v 0), dutyB := BitVec.ofInt 9 (max (-v) 0) }

/-- `s` with these edges placed. -/
def State.withEdges (s : State) (es : List Inputs) : State := { s with pending := es.map .edge }

/-- `s` with `n` edges placed at which nothing is asserted. -/
def State.withQuiet (s : State) (n : Nat) : State := { s with pending := List.replicate n (.edge quietInputs) }

/-- `s` with the command word `w` offered at the next edge and `n` quiet edges after it. -/
def State.withOffer (s : State) (w : CmdWord) (n : Nat) : State := (s.withQuiet n).place (.edge (offerInputs w))

/-- What a test reads of a next state. -/
def after {α : Type} (f : State → α) (o : Host.Outcome State Fault Refusal) : Option α :=
  match o with
  | .next t => some (f t)
  | .fault _ => none
  | .refused _ => none

theorem withQuiet_quietFor (s : State) (n : Nat) : (s.withQuiet n).quietFor n = true := by
  have h := quietFor_of_pending (s := s.withQuiet n) (rest := []) (List.replicate n (.edge quietInputs))
    (by simp [State.withQuiet]) fun e he => by rw [List.eq_of_mem_replicate he]; rfl
  rwa [List.length_replicate] at h

/-! ## Decoding: words written out from 30_encoding.md R82 and R87 -/

/-- `00xxxxxxxxxxxxxxxx`. -/
theorem test_decode_nop : decode 0b00_0000000000000101#18 = .nop := by decide

/-- `01ssssssssssssssss`, `SET_TARGET -50`. -/
theorem test_decode_set_target : decode 0b01_1111111111001110#18 = .setTarget 0xFFCE#16 := by decide

/-- `10xxxxxxxxxxxxxxxx`, junk operand. -/
theorem test_decode_stop : decode 0b10_1010101111001101#18 = .stop := by decide

/-- `11xxxxxxxxxxxxxxxx`. -/
theorem test_decode_rsvd : decode 0b11_0000000000000101#18 = .rsvd := by decide

/-- A string of bits that is too short or has a nineteenth bit is no command word (R80). -/
theorem test_decode_rejects :
    decodeBits 16 5 = .error .shorterThanCommand ∧ decodeBits 24 0x40000 = .error .longerThanCommand ∧
      decodeTableWord 24 0x20000 = some .stop := by decide

/-! ## Smoke tests: ill-formed terms are refused -/

theorem test_wellFormed_refuses_accessor :
    Instr.wellFormed .currentSpeed = false ∧ Instr.wellFormed .currentDirection = false ∧
      Instr.wellFormed (.setTarget 0x8000#16) = true := by decide

theorem test_program_refuses_reserved :
    Instr.allowedInProgram .rsvd = false ∧ Instr.allowedInProgram .currentSpeed = false ∧
      Instr.allowedInProgram .stop = true := by decide

/-- Each condition of 00_scope.md R8, broken on its own. -/
theorem test_elaborate_refuses :
    Params.elaborate ⟨254, 40, 1000, 1, 0, 8⟩ = .error .maxSpeed ∧
    Params.elaborate ⟨255, 41, 1000, 1, 0, 8⟩ = .error .rampStepDelay ∧
    Params.elaborate ⟨255, 40, 999, 1, 0, 8⟩ = .error .reverseBrake ∧
    Params.elaborate ⟨255, 40, 2001, 1, 0, 8⟩ = .error .reverseBrake ∧
    Params.elaborate ⟨255, 40, 1000, 0, 0, 8⟩ = .error .clkPerMs ∧
    Params.elaborate ⟨256, 40, 1000, 1, 0, 8⟩ = .error .pwmResolution := by decide

theorem test_elaborate_accepts :
    Params.elaborate ⟨255, 40, 1000, 1, 20000, 8⟩ = .ok testCfg ∧
    Params.elaborate ⟨256, 40, 2000, 3, 0, 10⟩ = .ok ⟨.speed256, 1000, 2, 0, 1⟩ := by decide

/-! ## Vectors of 95_test_vectors.md -/

/-- V1, row 0x270F at both values of `MAX_SPEED`. -/
theorem test_set_target_clamps :
    after State.target (exec (.setTarget 0x270F#16) (testState testCfg .idle 0 0)) = some 255 ∧
    after State.target (exec (.setTarget 0x270F#16) (testState testCfg256 .idle 0 0)) = some 256 := by decide

/-- V2, rows -1 to 1 and 100 to 0. -/
theorem test_set_target_reversal :
    after State.state (exec (.setTarget 0x0001#16) (testState testCfg .idle (-1) (-1))) = some .revStep ∧
    after State.state (exec (.setTarget 0x0000#16) (testState testCfg .idle 100 100)) = some .rampStep := by decide

/-- V7, row `STOP` with junk operand. -/
theorem test_stop_accepted :
    after (fun t => (t.state, t.target, t.resume)) (step ((testState testCfg .idle 0 0).withOffer 0x2ABCD#18 0)) =
      some (.stop, 0, false) := by decide

/-- V7, row `STOP` offered in `RAMP_WAIT`: it waits. -/
theorem test_stop_waits :
    after (fun t => (t.state, t.target)) (exec .stop ({ testState testCfg .rampWait 3 9 with dlyCnt := 5 })) =
      some (.rampWait, 9) := by decide

/-- V7, first row. -/
theorem test_nop : exec .nop (testState testCfg .idle 7 7) = .next (testState testCfg .idle 7 7) := by rfl

/-- V7, third row: `cmd_valid = 0` in `IDLE`, whatever stands on the other command ports. -/
theorem test_idle_without_command :
    step (({ testState testCfg .idle 7 7 with pwmWr := true }).withEdges [{ offerInputs 0x20000#18 with cmdValid := false }]) =
      .next (testState testCfg .idle 7 7) := by rfl

/-- `ReservedActsAsNop`: the word 0x30005 on offer in `IDLE`. -/
theorem witness_ReservedActsAsNop :
    (testState testCfg .idle 0 0).state = .idle ∧ (offerInputs 0x30005#18).cmdValid = true ∧
      decode (wordOf (offerInputs 0x30005#18)) = .rsvd := by decide

/-- V7, second row. -/
theorem test_rsvd :
    after (fun t => (t.state, t.speed, t.pwmWr)) (step ((testState testCfg .idle 0 0).withOffer 0x30005#18 0)) =
      some (.idle, 0, false) := by decide

/-- V6, row -50: `speed_out = 0x3CE`. -/
theorem test_current_speed :
    after State.hostResult (exec .currentSpeed (testState testCfg .idle (-50) (-50))) = some (some (.speed 0x3CE#10)) := by
  decide

/-- V6, rows -50 and 256. -/
theorem test_current_direction :
    after State.hostResult (exec .currentDirection (testState testCfg .idle (-50) (-50))) = some (some (.direction 0b10#2)) ∧
    after State.hostResult (exec .currentDirection (testState testCfg256 .idle 256 256)) = some (some (.direction 0b01#2)) := by
  decide

/-- V3, rows -5 to 0 and 3 to 3. -/
theorem test_ramp_step :
    after (fun t => (t.speed, t.dutyA.toNat, t.dutyB.toNat, t.state, t.dlyCnt.toNat))
      (step ((testState testCfg .rampStep (-5) 0).withQuiet 1)) = some (-4, 0, 4, .rampWait, 40) ∧
    after (fun t => (t.speed, t.dutyA.toNat, t.dutyB.toNat, t.state, t.pwmWr))
      (step ((testState testCfg .rampStep 3 3).withQuiet 1)) = some (3, 3, 0, .idle, true) := by decide

/-- V4, rows `REV_STEP` at -1 and `REV_WAIT` at 0. -/
theorem test_reversal_arms :
    after (fun t => (t.speed, t.dutyA.toNat, t.dutyB.toNat, t.state))
      (step ((testState testCfg .revStep (-1) 1).withQuiet 1)) = some (0, 0, 0, .revWait) ∧
    after (fun t => (t.state, t.dlyCnt.toNat))
      (step (({ testState testCfg .revWait 0 1 with dlyCnt := 1, resume := true }).withQuiet 1)) = some (.stop, 0) := by decide

/-- V4, rows `STOP` at 200 and `BRAKE_WAIT` with `resume = 1`. -/
theorem test_brake_arms :
    after (fun t => (t.speed, t.dutyA.toNat, t.pwmWr, t.state, t.dlyCnt.toNat))
      (step ((testState testCfg .stop 200 0).withQuiet 1)) = some (0, 0, true, .brakeWait, 1000) ∧
    after State.state (step (({ testState testCfg .brakeWait 0 5 with dlyCnt := 1, resume := true }).withQuiet 1)) =
      some .rampStep := by decide

/-- V5, wait edges 2, 3 and 6. -/
theorem test_tick :
    (fun s : State => (s.tickDone, s.tick.presc, s.tick.dlyCnt.toNat))
      { testState testCfgClk3 .rampWait 0 0 with presc := 1, dlyCnt := 2 } = (false, 2, 2) ∧
    (fun s : State => (s.tickDone, s.tick.presc, s.tick.dlyCnt.toNat))
      { testState testCfgClk3 .rampWait 0 0 with presc := 2, dlyCnt := 2 } = (false, 0, 1) ∧
    (fun s : State => (s.tickDone, s.tick.presc, s.tick.dlyCnt.toNat))
      { testState testCfgClk3 .rampWait 0 0 with presc := 2, dlyCnt := 1 } = (true, 0, 0) := by decide

/-- V9, rows 2 and 5: a command at a fault edge is lost; reset wins over a fault. -/
theorem test_priority :
    after (fun t => (t.state, t.fault, t.target))
      (step ((testState testCfg .idle 0 0).withEdges [{ offerInputs 0x10004#18 with pwmErr := true }])) =
      some (.fault, true, 0) ∧
    after (fun t => (t.state, t.fault))
      (step ((testState testCfg .idle 0 0).withEdges [{ quietInputs with pwmErr := true, rst := true }])) =
      some (.stop, false) := by decide

/-- R85, R86: lines of text, with a comment, a hexadecimal operand and a refused one. -/
theorem test_assembler :
    parseLine ['S', 'E', 'T', '_', 'T', 'A', 'R', 'G', 'E', 'T', ' ', '-', '5', '0', ';', 'x'] =
      .ok (some (.cmd (.setTarget 0xFFCE#16))) ∧
    parseLine ['R', 'E', 'V', 'E', 'R', 'S', 'E', ' ', '3', '2', '7', '6', '8'] = .ok (some (.pseudo (.reverse 32768))) ∧
    parseLine ['R', 'S', 'V', 'D'] = .error .reservedOpcode ∧ parseLine [' ', ';'] = .ok none := by decide

/-! ## Witnesses: states and operands that meet the hypotheses of the statements -/

/-- An accepted command, with `n` quiet edges after it. -/
theorem accepts_withOffer (s : State) (w : CmdWord) (n : Nat) (h : s.state = .idle) (hw : wordOf (offerInputs w) = w) :
    (s.withOffer w n).accepts (decode w) ∧ (s.withOffer w n).popEvent.quietFor n = true :=
  ⟨⟨h, offerInputs w, rfl, rfl, rfl, rfl, by rw [hw]⟩, withQuiet_quietFor s n⟩

theorem witness_DecodeOfEncode :
    Instr.wellFormed (.setTarget 0xFFFF#16) = true ∧ Instr.wellFormed .currentDirection = false := by decide

theorem witness_EncodeOfDecode : opField 0x1FFCE#18 = 0b01#2 := by decide

theorem witness_OperandIsSignExtendedLowHalf :
    opField 0x18000#18 = 0b01#2 ∧ opField 0x20000#18 = opField 0x2ABCD#18 ∧ opField 0x20000#18 ≠ 0b01#2 := by decide

theorem witness_ElaborationRefusesIllegal : ∃ c, Params.elaborate ⟨256, 40, 2000, 3, 0, 10⟩ = .ok c := ⟨_, rfl⟩

theorem witness_ClampKeepsRange :
    (-(testCfg.maxSpeed : Int) ≤ 255 ∧ (255 : Int) ≤ testCfg.maxSpeed) ∧ (testCfg.maxSpeed : Int) < 256 ∧
      (-256 : Int) < -(testCfg.maxSpeed : Int) := by decide

/-- `ConfigurationNeverChanges`, `SpeedChangesByOne`: a step that answers. -/
theorem witness_step_answers : ∃ t, step ((testState testCfg .rampStep 0 3).withQuiet 1) = .next t := ⟨_, rfl⟩

/-- `EventsComeFromWriteArms`, all clauses. -/
theorem witness_EventsComeFromWriteArms :
    (∃ t, step ((testState testCfg .rampStep 0 3).withQuiet 1) = .next t ∧ t.pwmWr = true) ∧
    (∃ t, step ((testState testCfg .rampWait 0 3).withQuiet 1) = .next t ∧ t.pwmWr = false) ∧
    isEdge ((testState testCfg .rampWait 0 3).withQuiet 1).nextEvent = true ∧
    ((testState testCfg .rampStep 0 3).withQuiet 1).SpeedsInRange :=
  ⟨⟨_, rfl, rfl⟩, ⟨_, rfl, rfl⟩, rfl, by unfold State.SpeedsInRange; decide⟩

/-- `ReversalIsNegativeProduct`: a negative product, and a product of zero. -/
theorem witness_ReversalIsNegativeProduct :
    ((testState testCfg .idle 1 1).withOffer 0x1FFFF#18 0).accepts (.setTarget 0xFFFF#16) ∧
    (1 : Int) * clamp testCfg (requested 0xFFFF#16) < 0 ∧
    ((testState testCfg .idle 0 0).withOffer 0x1FFFF#18 0).accepts (.setTarget 0xFFFF#16) ∧
    0 ≤ (0 : Int) * clamp testCfg (requested 0xFFFF#16) :=
  ⟨(accepts_withOffer (testState testCfg .idle 1 1) 0x1FFFF#18 0 rfl (by decide)).1, by decide,
    (accepts_withOffer (testState testCfg .idle 0 0) 0x1FFFF#18 0 rfl (by decide)).1, by decide⟩

/-- `ZeroIsNeverReversal`: speed 0; target 0 from speed 100; and both ramp states. -/
theorem witness_ZeroIsNeverReversal :
    ((testState testCfg .idle 0 0).withOffer 0x1FFCE#18 0).accepts (.setTarget 0xFFCE#16) ∧
    ((testState testCfg .idle 100 100).withOffer 0x10000#18 0).accepts (.setTarget 0x0000#16) ∧
    clamp testCfg (requested 0x0000#16) = 0 ∧
    quietEvent ((testState testCfg .rampStep 3 3).withQuiet 1).nextEvent = true ∧
    quietEvent ((testState testCfg .rampWait 3 3).withQuiet 1).nextEvent = true :=
  ⟨(accepts_withOffer (testState testCfg .idle 0 0) 0x1FFCE#18 0 rfl (by decide)).1,
    (accepts_withOffer (testState testCfg .idle 100 100) 0x10000#18 0 rfl (by decide)).1, by decide, rfl, rfl⟩

/-- `StepRunsDecodedCommand`: an offer, no offer (in `IDLE`), a dead block with `pwm_err = 1`, and the two accessor calls. -/
theorem witness_StepRunsDecodedCommand :
    ((testState testCfg .idle 0 0).withOffer 0x20000#18 0).nextEvent = .edge (offerInputs 0x20000#18) ∧
    ((testState testCfg .idle 0 0).withQuiet 1).nextEvent = .edge quietInputs ∧
    ((testState testCfg .fault 0 0).withEdges [{ quietInputs with pwmErr := true }]).nextEvent =
      .edge { quietInputs with pwmErr := true } ∧
    ((testState testCfg .fault 0 0).place .readSpeed).nextEvent = .readSpeed ∧
    ((testState testCfg .fault 0 0).place .readDirection).nextEvent = .readDirection := ⟨rfl, rfl, rfl, rfl, rfl⟩

theorem witness_PlacedWordRuns : decodeTableWord 24 0x1FFCE = some (.setTarget 0xFFCE#16) := by decide

theorem witness_CommandsWaitWhileBusy :
    Instr.isCommand .stop = true ∧ (testState testCfg .rampWait 3 9).state ≠ .idle := by decide

theorem witness_CommandPortIgnoredWhileBusy :
    (testState testCfg .brakeWait 0 9).state ≠ .idle ∧ (offerInputs 0x10005#18).rst = quietInputs.rst ∧
      (offerInputs 0x10005#18).pwmErr = quietInputs.pwmErr := by decide

/-- `OnlyCommandsLeaveIdle`: by `SET_TARGET`, by `STOP`, by reset and by a fault. -/
theorem witness_OnlyCommandsLeaveIdle :
    (∃ t, step ((testState testCfg .idle 0 0).withOffer 0x10005#18 0) = .next t ∧ t.state ≠ .idle) ∧
    (∃ t, step ((testState testCfg .idle 0 0).withOffer 0x20000#18 0) = .next t ∧ t.state ≠ .idle) ∧
    (∃ t, step ((testState testCfg .idle 0 0).withEdges [{ quietInputs with rst := true }]) = .next t ∧ t.state ≠ .idle) ∧
    (∃ t, step ((testState testCfg .idle 0 0).withEdges [{ quietInputs with pwmErr := true }]) = .next t ∧
      t.state ≠ .idle) := by
  refine ⟨⟨_, rfl, by decide⟩, ⟨_, rfl, by decide⟩, ⟨_, rfl, by decide⟩, ⟨_, rfl, by decide⟩⟩

/-- `ResetLoadsEveryRegister`, `FaultArmDoesNothing`: a reset edge, and one that leaves `FAULT`. -/
theorem witness_ResetLoadsEveryRegister :
    ((testState testCfg .rampWait 7 9).withEdges [{ quietInputs with rst := true, pwmErr := true }]).nextEvent =
      .edge { quietInputs with rst := true, pwmErr := true } ∧
    ∃ t, step ((testState testCfg .fault 7 9).withEdges [{ quietInputs with rst := true }]) = .next t ∧ t.state ≠ .fault :=
  ⟨rfl, _, rfl, by decide⟩

/-- `ResetValues`, `ResetMeetsInvariant`, `ResetSequenceRuns`: a reset block with the edges of the whole reset sequence. -/
theorem witness_ResetSequenceRuns :
    (State.atReset ((testState testCfg .stop 0 0).withQuiet (1 + testCfg.brakeEdges))) ∧
    ((testState testCfg .stop 0 0).withQuiet (1 + testCfg.brakeEdges)).quietFor (1 + testCfg.brakeEdges) = true :=
  ⟨rfl, withQuiet_quietFor _ _⟩

/-- `FaultEntryKeepsRegisters`, `OnlyBackendRaisesFault`: P5's fault in a ramp, and a later stretch without reset. -/
theorem witness_FaultEntryKeepsRegisters :
    ∃ t, step (((testState testCfg .rampWait 2 5).withQuiet 1).place (.edge { quietInputs with pwmErr := true })) = .next t ∧
      t.state = .fault ∧ t.noResetFor 1 = true := ⟨_, rfl, rfl, rfl⟩

/-- `FaultArmDoesNothing`: an edge in `FAULT` with a command offered and `pwm_err = 1`. -/
theorem witness_FaultArmDoesNothing :
    ((testState testCfg .fault 2 5).withEdges [{ offerInputs 0x20000#18 with pwmErr := true }]).nextEvent =
      .edge { offerInputs 0x20000#18 with pwmErr := true } := rfl

theorem witness_FaultHoldsUntilReset :
    ((testState testCfg .fault 2 5).withEdges [{ quietInputs with pwmErr := true }, quietInputs]).noResetFor 2 = true := by
  decide

/-- `OnlyBackendRaisesFault`, second clause. -/
theorem witness_OnlyBackendRaisesFault :
    ∃ t, exec .stop (testState testCfg .idle 5 5) = .next t ∧ (testState testCfg .idle 5 5).state ≠ .fault :=
  ⟨_, rfl, by decide⟩

/-- `NopChangesNothing`, `ReservedActsAsNop`, `SetTargetAcceptance`, `StopAcceptance`: an idle block; and a busy one. -/
theorem witness_idle_and_busy :
    (testState testCfg .idle 5 5).state = .idle ∧ (testState testCfg .revWait 5 (-5)).state ≠ .idle := by decide

/-- `CommandFrame`: each of its clauses. -/
theorem witness_CommandFrame :
    (∃ t, exec (.setTarget 0x0003#16) (testState testCfg .rampWait 5 9) = .next t) ∧
    (testState testCfg .rampWait 5 9).state ≠ .idle ∧ (testState testCfg .rampWait 5 9).state ≠ .revStep ∧
    (testState testCfg .rampWait 5 9).state ≠ .stop ∧ (testState testCfg .rampWait 5 9).state ≠ .rampStep ∧
    (∃ t, exec .nop (testState testCfg .idle 5 5) = .next t) ∧ (testState testCfg .idle 5 5).state = .idle :=
  ⟨⟨_, rfl⟩, by decide, by decide, by decide, by decide, ⟨_, rfl⟩, by decide⟩

/-- `CurrentDirectionReadsSign`: a forward, a reverse and a stopped block. -/
theorem witness_CurrentDirectionReadsSign :
    0 < (testState testCfg .idle 1 1).speed ∧ (testState testCfg .idle (-1) (-1)).speed < 0 ∧
      (testState testCfg .idle 0 0).speed = 0 := by decide

/-- A block right after a final write, as P1 ends: `EventsAreTwoEdgesApart`, `StepKeepsInvariant`, `StatusOutputs`. -/
theorem witness_StepInvariant :
    StepInvariant (({ testState testCfg .idle 3 3 with resume := true, pwmWr := true }).withQuiet 1) := by
  refine ⟨⟨?_, ?_, ?_, ?_, ?_, ?_, ?_, ?_⟩, ?_, ?_, ?_, ?_⟩ <;> decide

theorem witness_EventsAreTwoEdgesApart :
    ∃ t, step (({ testState testCfg .idle 3 3 with resume := true, pwmWr := true }).withQuiet 1) = .next t := ⟨_, rfl⟩

/-- `RampNeverCrossesZero`: a block under way from 254 to 255. -/
theorem witness_RampNeverCrossesZero :
    StepInvariant ((testState testCfg .rampStep 254 255).withQuiet 1) ∧
    ((testState testCfg .rampStep 254 255).withQuiet 1).RampsOnOneSide ∧
    ∃ t, step ((testState testCfg .rampStep 254 255).withQuiet 1) = .next t := by
  refine ⟨⟨⟨?_, ?_, ?_, ?_, ?_, ?_, ?_, ?_⟩, ?_, ?_, ?_, ?_⟩, ?_, ⟨_, rfl⟩⟩ <;> first | decide | exact fun _ => by decide

theorem witness_ListedInvariantsAlwaysHold :
    State.atReset ((testState testCfg .stop 0 0).withQuiet 1) ∧
      ∃ t : State, Host.Core.run Sys2Proof.core 1 ((testState testCfg .stop 0 0).withQuiet 1) = .next t := ⟨rfl, _, rfl⟩

/-- The arms: a quiet edge in each state, at speed 1 (the last reversal step), 0 and 3, and with the target one away and
reached. -/
theorem witness_arms :
    quietEvent ((testState testCfg .revStep 1 (-1)).withQuiet 1).nextEvent = true ∧
    quietEvent ((testState testCfg .revWait 0 (-1)).withQuiet 1).nextEvent = true ∧
    quietEvent ((testState testCfg .stop 200 0).withQuiet 1).nextEvent = true ∧
    quietEvent ((testState testCfg .brakeWait 0 5).withQuiet 1).nextEvent = true ∧
    quietEvent ((testState testCfg .rampWait 3 5).withQuiet 1).nextEvent = true ∧
    (quietEvent ((testState testCfg .rampStep 3 3).withQuiet 1).nextEvent = true ∧
      ((testState testCfg .rampStep 3 3).withQuiet 1).speed = ((testState testCfg .rampStep 3 3).withQuiet 1).target) ∧
    (quietEvent ((testState testCfg .rampStep 254 255).withQuiet 1).nextEvent = true ∧
      ((testState testCfg .rampStep 254 255).withQuiet 1).speed < ((testState testCfg .rampStep 254 255).withQuiet 1).target) ∧
    (quietEvent ((testState testCfg .rampStep 0 (-1)).withQuiet 1).nextEvent = true ∧
      ((testState testCfg .rampStep 0 (-1)).withQuiet 1).target < ((testState testCfg .rampStep 0 (-1)).withQuiet 1).speed) :=
  ⟨rfl, rfl, rfl, rfl, rfl, ⟨rfl, rfl⟩, ⟨rfl, by decide⟩, ⟨rfl, by decide⟩⟩

/-- `ReversalStepArm`: R41 in `REV_STEP`, one step before 0. -/
theorem witness_ReversalStepArm :
    (fun s : State => s.state = .revStep ∧ quietEvent s.nextEvent = true ∧ ListedInvariants s ∧ s.speed ≠ 0)
      (({ testState testCfg .revStep 1 (-1) with resume := true }).withQuiet 1) := by
  refine ⟨rfl, rfl, ⟨?_, ?_, ?_, ?_, ?_, ?_, ?_, ?_⟩, ?_⟩ <;> decide

/-- `FinalWriteArm`, `RampStepArm`: speeds in range, the target reached and at the ends of the range. -/
theorem witness_SpeedsInRange :
    ((testState testCfg .rampStep (-255) (-255)).withQuiet 1).SpeedsInRange ∧
    ((testState testCfg .rampStep 254 255).withQuiet 1).SpeedsInRange ∧
    ((testState testCfg .rampStep (-254) (-255)).withQuiet 1).SpeedsInRange := by
  unfold State.SpeedsInRange
  decide

/-- `DelayLoadRestartsPrescaler`: the ends of the range. -/
theorem witness_DelayLoadRestartsPrescaler : (1 ≤ 1 ∧ 1 ≤ 2047) ∧ (1 ≤ 2047 ∧ 2047 ≤ 2047) := by decide

/-- `TickCountsOneCycle`: the last cycle of a millisecond with one left, and the first. -/
theorem witness_TickCountsOneCycle :
    (fun s : State => s.presc = s.cfg.clkPerMs - 1 ∧ 1 ≤ s.dlyCnt.toNat)
      { testState testCfgClk3 .rampWait 0 0 with presc := 2, dlyCnt := 1 } ∧
    (fun s : State => s.presc < s.cfg.clkPerMs - 1) { testState testCfgClk3 .rampWait 0 0 with presc := 0, dlyCnt := 1 } := by
  decide

/-- `DelayLastsExactly`: two milliseconds at three edges each, in each wait state. -/
theorem witness_DelayLastsExactly :
    ∀ q, q = .revWait ∨ q = .brakeWait ∨ q = .rampWait →
      (fun s : State => (s.state = .revWait ∨ s.state = .brakeWait ∨ s.state = .rampWait) ∧ 1 ≤ s.dlyCnt.toNat ∧
        s.presc = 0 ∧ s.quietFor (s.dlyCnt.toNat * s.cfg.clkPerMs) = true)
        (({ testState testCfgClk3 q 0 0 with dlyCnt := 2 }).withQuiet 6) :=
  fun _ h => ⟨h, (by decide : 1 ≤ 2), rfl, withQuiet_quietFor _ 6⟩

/-- `StopRunsEdgeByEdge`: `STOP` from 200 (W4), and from 0. -/
theorem witness_StopRunsEdgeByEdge (v : Int) (_ : v = 200 ∨ v = 0) :
    ((testState testCfg .idle v v).withOffer 0x20000#18 (stopBusyEdges testCfg)).accepts .stop ∧
    ((testState testCfg .idle v v).withOffer 0x20000#18 (stopBusyEdges testCfg)).popEvent.quietFor (stopBusyEdges testCfg) =
      true := accepts_withOffer (testState testCfg .idle v v) 0x20000#18 _ rfl (by decide)

/-- `SetTargetReachesClampedSpeed`, `DirectRampWriteTrace`: `SET_TARGET 9999` from rest (W3). -/
theorem witness_DirectRampWriteTrace :
    (fun s : State => s.accepts (.setTarget 0x270F#16) ∧
      reversal s.speed (clamp s.cfg (requested 0x270F#16)) = false ∧
      s.popEvent.quietFor (1 + (clamp s.cfg (requested 0x270F#16) - s.speed).natAbs * s.cfg.stepPeriod) = true)
      ((testState testCfg .idle 0 0).withOffer 0x1270F#18 10456) :=
  have h := accepts_withOffer (testState testCfg .idle 0 0) 0x1270F#18 10456 rfl (by decide)
  ⟨h.1, by decide, h.2⟩

/-- `SetTargetReachesClampedSpeed`, `ReversalWriteTrace`: `SET_TARGET -50` from 100 (W2). -/
theorem witness_ReversalWriteTrace :
    (fun s : State => s.accepts (.setTarget 0xFFCE#16) ∧
      reversal s.speed (clamp s.cfg (requested 0xFFCE#16)) = true ∧
      s.popEvent.quietFor (setTargetBusyEdges s.cfg s.speed (clamp s.cfg (requested 0xFFCE#16))) = true)
      ((testState testCfg .idle 100 100).withOffer 0x1FFCE#18 7152) :=
  have h := accepts_withOffer (testState testCfg .idle 100 100) 0x1FFCE#18 7152 rfl (by decide)
  ⟨h.1, by decide, h.2⟩

/-- `PseudoCommandsExpand`: the ends of the ranges. -/
theorem witness_PseudoCommandsExpand : 32767 ≤ 32767 ∧ 32768 ≤ 32768 ∧ 32767 < 32768 ∧ 32768 < 32769 := by decide

/-- `AssembledProgramsAreAllowed`: a program with a line of each kind (P6, P4). -/
theorem witness_AssembledProgramsAreAllowed :
    assembleProgram [.cmd .nop, .hold 3, .pseudo .coast, .waitIdle] =
      .ok [.offer 0x00000#18, .hold 3, .offer 0x10000#18, .waitIdle] := by decide

end Sys2Proof.Machine
end

section
/-! The scope's statements: which parameter choices elaborate (R8), and that no step changes the configuration (R6). -/

namespace Sys2Proof

/-! ### Elaboration -/

theorem MaxSpeed.ofValue_value (m : MaxSpeed) : MaxSpeed.ofValue m.value = some m := by cases m <;> rfl

theorem MaxSpeed.value_of_ofValue {n : Nat} {m : MaxSpeed} (h : MaxSpeed.ofValue n = some m) : m.value = n := by
  unfold MaxSpeed.ofValue at h
  split at h
  case isTrue h255 => cases h; exact h255.symm
  case isFalse =>
    split at h
    case isTrue h256 => cases h; exact h256.symm
    case isFalse => cases h

/-- `minResBits` is what R8's last condition asks for: the fewest bits that hold the value. -/
theorem MaxSpeed.minResBits_le_iff (m : MaxSpeed) (k : Nat) : m.minResBits ≤ k ↔ m.value ≤ 2 ^ k - 1 := by
  have value_between : m.value ≤ 2 ^ m.minResBits - 1 ∧ 2 ^ (m.minResBits - 1) - 1 < m.value := by cases m <;> decide
  constructor
  · intro hk
    have := Nat.pow_le_pow_right (n := 2) (by decide) hk
    omega
  · intro hv
    by_contra hk
    have := Nat.pow_le_pow_right (n := 2) (by decide) (show k ≤ m.minResBits - 1 by omega)
    omega

theorem Params.legal_iff (p : Params) : p.legal = true ↔
    (p.maxSpeed = 255 ∨ p.maxSpeed = 256) ∧ 1000 ≤ p.reverseBrakeMs ∧ p.reverseBrakeMs ≤ 2000 ∧ p.rampStepDelayMs = 40 ∧
      1 ≤ p.clkPerMs ∧ p.maxSpeed ≤ 2 ^ p.pwmResBits - 1 := decide_eq_true_iff

/-- Every configuration stands for a legal choice. -/
theorem Config.params_legal (c : Config) : c.params.legal = true :=
  have ⟨lo, hi⟩ := Machine.Config_reverseBrakeMs_range c
  c.params.legal_iff.mpr ⟨Machine.Config_maxSpeed_cases c, lo, hi, rfl, Machine.Config_clkPerMs_pos c,
    (c.maxSpeedBuild.minResBits_le_iff _).mp (Nat.le_add_right _ _)⟩

/-- The offsets a configuration holds lose nothing of a choice within R8's bounds. -/
theorem Config.params_of_offsets {p : Params} {m : MaxSpeed} (speed : m.value = p.maxSpeed) (ramp : p.rampStepDelayMs = 40)
    (brake : 1000 ≤ p.reverseBrakeMs ∧ p.reverseBrakeMs ≤ 2000) (clk : 1 ≤ p.clkPerMs) (res : m.minResBits ≤ p.pwmResBits) :
    Config.params {
      maxSpeedBuild := m
      brakeOver1000 := ⟨p.reverseBrakeMs - 1000, by omega⟩
      clkPerMsPred := p.clkPerMs - 1
      pwmFreqHz := p.pwmFreqHz
      pwmResSpare := p.pwmResBits - m.minResBits } = p := by
  simp [Config.params, Config.maxSpeed, Config.rampStepDelayMs, Config.reverseBrakeMs, Config.clkPerMs, Config.pwmResBits,
    speed, ← ramp, Nat.add_sub_of_le brake.1, Nat.sub_add_cancel clk, Nat.add_sub_of_le res]

/-- Every legal choice is what some configuration stands for. -/
theorem Params.exists_config_of_legal {p : Params} (h : p.legal = true) : ∃ c : Config, c.params = p := by
  obtain ⟨speed, lo, hi, ramp, clk, res⟩ := p.legal_iff.mp h
  obtain ⟨m, hm⟩ : ∃ m : MaxSpeed, m.value = p.maxSpeed :=
    speed.elim (fun h255 => ⟨.speed255, h255.symm⟩) fun h256 => ⟨.speed256, h256.symm⟩
  exact ⟨_, Config.params_of_offsets hm ramp ⟨lo, hi⟩ clk ((m.minResBits_le_iff _).mpr (hm ▸ res))⟩

theorem Config.elaborate_params (c : Config) : c.params.elaborate = .ok c := by
  have brake : 1000 + c.brakeOver1000.val ≤ 2000 := (Machine.Config_reverseBrakeMs_range c).2
  simp [Params.elaborate, Config.params, Config.maxSpeed, MaxSpeed.ofValue_value, Config.rampStepDelayMs,
    Config.reverseBrakeMs, brake, Config.clkPerMs, Config.pwmResBits]

/-- An accepted choice passed every check of the elaboration. -/
theorem Params.params_of_elaborate {p : Params} {c : Config} (h : p.elaborate = .ok c) : c.params = p := by
  unfold Params.elaborate at h
  split at h
  case h_1 => cases h
  case h_2 m hm =>
    split_ifs at h with ramp brake clk res
    cases h
    exact Config.params_of_offsets (MaxSpeed.value_of_ofValue hm) (not_not.mp ramp) brake (Nat.pos_of_ne_zero clk)
      (Nat.not_lt.mp res)

theorem Params.elaborates_iff_legal (p : Params) : (∃ c, p.elaborate = .ok c) ↔ p.legal = true := by
  constructor
  · rintro ⟨c, hc⟩
    exact Params.params_of_elaborate hc ▸ c.params_legal
  · intro h
    obtain ⟨c, rfl⟩ := Params.exists_config_of_legal h
    exact ⟨c, c.elaborate_params⟩

/-- Settles O6: a configuration's parameters are legal and elaborate back to it, and every legal choice is the parameters of
a configuration. -/
theorem elaborationRefusesIllegal : Obligations.ElaborationRefusesIllegal :=
  ⟨fun p => p.elaborates_iff_legal.trans p.legal_iff, fun _ _ => Params.params_of_elaborate, Config.elaborate_params⟩

/-! ### The configuration along a step -/

namespace Machine

theorem step_cfg {s t : State} (h : step s = .next t) : t.cfg = s.cfg := by
  rcases step_cases h with ⟨r, -, rfl⟩ | ⟨inp, -, -, rfl⟩ | ⟨inp, -, -, -, -, rfl⟩ | ⟨inp, -, -, -, accept, ha, rfl⟩
  case inl => rw [State.giveHost_cfg, State.popEvent_cfg]
  case inr.inl => rw [State.resetRegs_cfg, State.popEvent_cfg]
  case inr.inr.inl => rw [State.raiseFault_cfg, State.popEvent_cfg]
  case inr.inr.inr =>
    obtain ⟨-, -, cfg_eq, -⟩ := sequencerEdge_environment (s := s.popEvent) accept (ha.imp_right And.right)
    rw [cfg_eq, State.popEvent_cfg]

end Machine

/-- Settles O7, by what a step can do: an accessor's answer, a reset, a fault entry or a sequencer edge. -/
theorem configurationNeverChanges : Obligations.ConfigurationNeverChanges := fun _ _ => Machine.step_cfg

end Sys2Proof
end

section
/-! The registers' statements: the values after reset (R40), what no command changes, and the invariants of every reachable
state (R41). -/

namespace Sys2Proof.Machine

variable {s t : State} {q : SeqState}

/-! ### What an edge without an acceptance action can do -/

/-- An arm of a wait state is a tick and a next state. -/
theorem armRevWait_eq_tick_goto (s : State) : ∃ q, armRevWait s = s.tick.goto q := by
  unfold armRevWait
  split
  · split <;> exact ⟨_, rfl⟩
  · exact ⟨s.tick.state, rfl⟩

theorem armBrakeWait_eq_tick_goto (s : State) : ∃ q, armBrakeWait s = s.tick.goto q := by
  unfold armBrakeWait
  split
  · split <;> exact ⟨_, rfl⟩
  · exact ⟨s.tick.state, rfl⟩

theorem armRampWait_eq_tick_goto (s : State) : ∃ q, armRampWait s = s.tick.goto q := by
  unfold armRampWait
  split
  · exact ⟨_, rfl⟩
  · exact ⟨s.tick.state, rfl⟩

/-- The shapes of an edge that accepts nothing: only the strobe's default in `IDLE` and `FAULT`, a tick in a wait state, a
write in a write arm. -/
theorem sequencerEdge_acceptNone_cases (s : State) :
    ((s.state = .idle ∨ s.state = .fault) ∧ s.sequencerEdge acceptNone = s.clearStrobe) ∨
    ((s.state = .revWait ∨ s.state = .brakeWait ∨ s.state = .rampWait) ∧
      ∃ q, s.sequencerEdge acceptNone = s.clearStrobe.tick.goto q) ∨
    ((s.state = .revStep ∨ s.state = .stop ∨ s.state = .rampStep) ∧
      ((∃ v n q, s.sequencerEdge acceptNone = (((s.clearStrobe.setSpeed v).emit v).delayLoad n).goto q) ∨
        ∃ v q, s.sequencerEdge acceptNone = (s.clearStrobe.emit v).goto q)) := by
  cases h : s.state with
  | idle => exact .inl ⟨.inl rfl, sequencerEdge_idle _ h⟩
  | fault => exact .inl ⟨.inr rfl, sequencerEdge_fault _ h⟩
  | revWait => exact .inr (.inl ⟨.inl rfl, sequencerEdge_revWait _ h ▸ armRevWait_eq_tick_goto _⟩)
  | brakeWait => exact .inr (.inl ⟨.inr (.inl rfl), sequencerEdge_brakeWait _ h ▸ armBrakeWait_eq_tick_goto _⟩)
  | rampWait => exact .inr (.inl ⟨.inr (.inr rfl), sequencerEdge_rampWait _ h ▸ armRampWait_eq_tick_goto _⟩)
  | revStep => exact .inr (.inr ⟨.inl rfl, .inl ⟨_, _, _, sequencerEdge_revStep _ h⟩⟩)
  | stop => exact .inr (.inr ⟨.inr (.inl rfl), .inl ⟨_, _, _, sequencerEdge_stop _ h⟩⟩)
  | rampStep =>
    refine .inr (.inr ⟨.inr (.inr rfl), ?_⟩)
    rw [sequencerEdge_rampStep _ h, armRampStep]
    split
    · exact .inr ⟨_, _, rfl⟩
    · exact .inl ⟨_, _, _, rfl⟩

/-! ### What no command changes -/

/-- A command that waits, and one that does nothing at acceptance, runs the edge of no command. -/
theorem exec_eq_acceptNone {i : Instr} (hi : i.isCommand = true) (h : s.state ≠ .idle ∨ i = .nop ∨ i = .rsvd) :
    exec i s = .next (s.sequencerEdge acceptNone) := by
  rcases h with busy | rfl | rfl
  · obtain ⟨accept, -, exec_eq⟩ := exec_command hi
    rw [exec_eq, sequencerEdge_busy accept busy]
  · rfl
  · rfl

theorem sequencerEdge_acceptNone_target (s : State) :
    (s.sequencerEdge acceptNone).tgtSpeed = s.tgtSpeed ∧ (s.sequencerEdge acceptNone).resume = s.resume := by
  rcases sequencerEdge_acceptNone_cases s with ⟨-, e⟩ | ⟨-, q, e⟩ | ⟨-, ⟨v, n, q, e⟩ | ⟨v, q, e⟩⟩ <;> simp [e]

/-- The registers that an edge changes in some states only: the fault bit in none, the outputs in the write arms, the delay
timer in neither `IDLE` nor `FAULT`. -/
structure EdgeFrame (s t : State) : Prop where
  fault : t.fault = s.fault
  outputs : s.state ≠ .revStep → s.state ≠ .stop → s.state ≠ .rampStep →
    t.curSpeed = s.curSpeed ∧ t.dutyA = s.dutyA ∧ t.dutyB = s.dutyB ∧ t.pwmWr = false
  timer : s.state = .idle ∨ s.state = .fault → t.dlyCnt = s.dlyCnt ∧ t.presc = s.presc

theorem edgeFrame_acceptNone (s : State) : EdgeFrame s (s.sequencerEdge acceptNone) := by
  rcases sequencerEdge_acceptNone_cases s with ⟨-, e⟩ | ⟨wait, q, e⟩ | ⟨write, ⟨v, n, q, e⟩ | ⟨v, q, e⟩⟩
  · constructor <;> simp [e]
  · rw [e]
    exact ⟨by simp, by simp, fun rest => by rcases rest with h | h <;> simp [h] at wait⟩
  all_goals
    rw [e]
    exact ⟨by simp, fun a b c => by simp [a, b, c] at write, fun rest => by rcases rest with h | h <;> simp [h] at write⟩

theorem edgeFrame_sequencerEdge {accept : State → State}
    (ha : accept = acceptNone ∨ (∃ req, accept = acceptSetTarget req) ∨ accept = acceptStop) :
    EdgeFrame s (s.sequencerEdge accept) := by
  by_cases idle : s.state = .idle
  · rw [sequencerEdge_idle accept idle]
    rcases ha with rfl | ⟨req, rfl⟩ | rfl <;> constructor <;> simp [acceptNone, acceptSetTarget, acceptStop]
  · rw [sequencerEdge_busy accept idle]
    exact edgeFrame_acceptNone s

/-- Settles O27, by the shapes of a sequencer edge: a command in `IDLE` is its acceptance action, elsewhere the bare arm. -/
theorem commandFrame : Obligations.CommandFrame := by
  intro i s t hi ht
  obtain ⟨accept, ha, exec_eq⟩ := exec_command hi
  obtain rfl : s.sequencerEdge accept = t := Host.Outcome.next.inj (exec_eq s ▸ ht)
  obtain ⟨pending, freeDraws, cfg, hostResult⟩ := sequencerEdge_environment accept ha
  obtain ⟨fault, outputs, timer⟩ := edgeFrame_sequencerEdge (s := s) ha
  refine ⟨cfg, pending, freeDraws, hostResult, fault, fun h => ?_, outputs, timer⟩
  have bare : s.sequencerEdge acceptNone = s.sequencerEdge accept :=
    Host.Outcome.next.inj ((exec_eq_acceptNone hi h).symm.trans ht)
  exact bare ▸ sequencerEdge_acceptNone_target s

/-! ### The step invariant, state by state -/

/-- The part of the step invariant that does not look at the sequencer state. -/
structure RegistersAgree (s : State) : Prop where
  speeds : s.SpeedsInRange
  dutyA : (s.dutyA.toNat : Int) = max s.speed 0
  dutyB : (s.dutyB.toNat : Int) = max (-s.speed) 0
  presc : s.presc ≤ s.cfg.clkPerMs - 1

/-- What the step invariant says of the other registers when the sequencer is in the given state. -/
def State.FitFor (s : State) : SeqState → Prop
  | .idle => s.fault = false ∧ s.speed = s.target
  | .revStep => s.fault = false ∧ s.pwmWr = false ∧ s.resume = true ∧ s.speed ≠ 0 ∧ sgn s.target = -sgn s.speed
  | .revWait => s.fault = false ∧ 1 ≤ s.dlyCnt.toNat ∧ s.resume = true ∧ (s.speed ≠ 0 → sgn s.target = -sgn s.speed)
  | .stop => s.fault = false ∧ s.pwmWr = false ∧ (s.resume = false → s.target = 0)
  | .brakeWait => s.fault = false ∧ 1 ≤ s.dlyCnt.toNat ∧ s.speed = 0 ∧ (s.resume = false → s.target = 0)
  | .rampStep => s.fault = false ∧ s.pwmWr = false
  | .rampWait => s.fault = false ∧ 1 ≤ s.dlyCnt.toNat
  | .fault => s.fault = true ∧ s.pwmWr = false

theorem StepInvariant.registersAgree (h : StepInvariant s) : RegistersAgree s :=
  ⟨h.listed.speedsInRange, h.listed.dutyAProjects, h.listed.dutyBProjects, h.prescInRange⟩

theorem StepInvariant.fitFor (h : StepInvariant s) : s.FitFor s.state := by
  obtain ⟨⟨-, -, -, -, idle, wait, reversal, faultBit⟩, -, brake, stop, strobe⟩ := h
  have live (hs : s.state ≠ .fault) : s.fault = false := by simpa using mt faultBit.mp hs
  cases hs : s.state with
  | idle => exact ⟨live (by simp [hs]), idle hs⟩
  | revStep =>
    obtain ⟨resume, moving, opposed⟩ := reversal (.inl hs)
    have moving : s.speed ≠ 0 := by simpa [hs] using moving
    exact ⟨live (by simp [hs]), strobe (.inl hs), resume, moving, opposed moving⟩
  | revWait =>
    obtain ⟨resume, -, opposed⟩ := reversal (.inr hs)
    exact ⟨live (by simp [hs]), (wait (.inl hs)).1, resume, opposed⟩
  | stop => exact ⟨live (by simp [hs]), strobe (.inr (.inl hs)), stop (.inl hs)⟩
  | brakeWait => exact ⟨live (by simp [hs]), (wait (.inr (.inl hs))).1, brake hs, stop (.inr hs)⟩
  | rampStep => exact ⟨live (by simp [hs]), strobe (.inr (.inr (.inl hs)))⟩
  | rampWait => exact ⟨live (by simp [hs]), (wait (.inr (.inr hs))).1⟩
  | fault => exact ⟨faultBit.mpr hs, strobe (.inr (.inr (.inr hs)))⟩

theorem RegistersAgree.stepInvariant (h : RegistersAgree s) (fit : s.FitFor s.state) : StepInvariant s := by
  obtain ⟨⟨speed, target⟩, dutyA, dutyB, presc⟩ := h
  have fitIn {q : SeqState} (hs : s.state = q) : s.FitFor q := hs ▸ fit
  refine ⟨⟨speed, target, dutyA, dutyB, fun hs => (fitIn hs).2, ?wait, ?reversal, ?fault⟩, presc,
    fun hs => (fitIn hs).2.2.1, ?stop, ?strobe⟩
  case wait =>
    rintro (hs | hs | hs)
    · exact ⟨(fitIn hs).2.1, presc⟩
    · exact ⟨(fitIn hs).2.1, presc⟩
    · exact ⟨(fitIn hs).2, presc⟩
  case reversal =>
    rintro (hs | hs)
    · obtain ⟨-, -, resume, moving, opposed⟩ := fitIn hs
      exact ⟨resume, .inl moving, fun _ => opposed⟩
    · obtain ⟨-, -, resume, opposed⟩ := fitIn hs
      exact ⟨resume, .inr hs, opposed⟩
  case fault => cases hs : s.state <;> simp [(fitIn hs).1]
  case stop =>
    rintro (hs | hs)
    · exact (fitIn hs).2.2
    · exact (fitIn hs).2.2.2
  case strobe =>
    rintro (hs | hs | hs | hs)
    · exact (fitIn hs).2.1
    · exact (fitIn hs).2.1
    · exact (fitIn hs).2
    · exact (fitIn hs).2

/-! ### What the operations keep of it -/

@[simp] theorem State.fitFor_goto (r : SeqState) : (s.goto r).FitFor q ↔ s.FitFor q := by
  cases q <;> exact Iff.rfl

theorem RegistersAgree.goto (h : RegistersAgree s) (q : SeqState) : RegistersAgree (s.goto q) :=
  ⟨h.speeds, h.dutyA, h.dutyB, h.presc⟩

/-- Entering a state establishes the invariant when the registers fit that state. -/
theorem RegistersAgree.stepInvariant_goto (h : RegistersAgree s) (fit : s.FitFor q) : StepInvariant (s.goto q) :=
  (h.goto q).stepInvariant ((State.fitFor_goto q).mpr fit)

theorem RegistersAgree.latchTarget (h : RegistersAgree s) {v : Int} (r : Bool)
    (hv : -(s.cfg.maxSpeed : Int) ≤ v ∧ v ≤ s.cfg.maxSpeed) :
    RegistersAgree (s.latchTarget v r) ∧ (s.latchTarget v r).target = v := by
  have target : (s.latchTarget v r).target = v := by
    rcases Config_maxSpeed_cases s.cfg with m | m <;> exact s.latchTarget_target r (by omega) (by omega)
  exact ⟨⟨⟨h.speeds.1, by simpa [target] using hv⟩, h.dutyA, h.dutyB, h.presc⟩, target⟩

/-- A write of a legal speed together with its projection keeps the duties the projection of the speed. -/
theorem RegistersAgree.setSpeed_emit (h : RegistersAgree s) {v : Int}
    (hv : -(s.cfg.maxSpeed : Int) ≤ v ∧ v ≤ s.cfg.maxSpeed) :
    RegistersAgree ((s.setSpeed v).emit v) ∧ (s.setSpeed v).speed = v := by
  have small : -256 ≤ v ∧ v ≤ 256 := by
    rcases Config_maxSpeed_cases s.cfg with m | m <;> omega
  have speed : (s.setSpeed v).speed = v := s.setSpeed_speed (by omega) (by omega)
  refine ⟨⟨⟨by simpa [speed] using hv, h.speeds.2⟩, ?_, ?_, h.presc⟩, speed⟩
  · simpa [speed] using ofInt_duty_toNat (v := max v 0) (by omega) (by omega)
  · simpa [speed] using ofInt_duty_toNat (v := max (-v) 0) (by omega) (by omega)

theorem RegistersAgree.delayLoad (h : RegistersAgree s) (n : Nat) : RegistersAgree (s.delayLoad n) :=
  ⟨h.speeds, h.dutyA, h.dutyB, Nat.zero_le _⟩

/-- A tick keeps the prescaler in its range: below the last cycle the increment does not wrap (R26). -/
theorem State.tick_presc_le (h : s.presc ≤ s.cfg.clkPerMs - 1) : s.tick.presc ≤ s.cfg.clkPerMs - 1 := by
  unfold State.tick
  split
  · exact Nat.zero_le _
  · have fits := clkPerMs_le_prescWidth s.cfg
    show (s.presc + 1) % 2 ^ s.cfg.prescWidth ≤ _
    rw [Nat.mod_eq_of_lt (by omega)]
    omega

theorem RegistersAgree.tick (h : RegistersAgree s) : RegistersAgree s.tick := by
  obtain ⟨speeds, dutyA, dutyB, presc⟩ := h
  exact ⟨by simpa [State.SpeedsInRange] using speeds, by simpa using dutyA, by simpa using dutyB,
    by simpa using State.tick_presc_le presc⟩

/-- A delay that is not over at this edge still runs after it (R157). -/
theorem State.tick_dlyCnt_pos (h : 1 ≤ s.dlyCnt.toNat) (running : s.tickDone = false) : 1 ≤ s.tick.dlyCnt.toNat := by
  unfold State.tick
  split
  case isTrue last =>
    have notLast : s.dlyCnt ≠ 1#11 := by simpa [State.tickDone, last] using running
    show 1 ≤ (s.dlyCnt - 1#11).toNat
    bv_omega
  case isFalse => exact h

/-- A wait whose delay is not over goes on waiting. -/
theorem StepInvariant.tick_of_running (h : StepInvariant s)
    (wait : s.state = .revWait ∨ s.state = .brakeWait ∨ s.state = .rampWait) (running : s.tickDone = false) :
    StepInvariant s.tick := by
  have pos := State.tick_dlyCnt_pos (h.listed.waitRunning wait).1 running
  have fit := h.fitFor
  refine h.registersAgree.tick.stepInvariant ?_
  rcases wait with hs | hs | hs <;> simp_all [State.FitFor]

/-! ### The arms keep it -/

/-- One step of either ramp: the new speed and its projection, and a running delay. -/
theorem RegistersAgree.rampWrite (h : RegistersAgree s) {v : Int} (q : SeqState)
    (hv : -(s.cfg.maxSpeed : Int) ≤ v ∧ v ≤ s.cfg.maxSpeed) :
    RegistersAgree (s.rampWrite v q) ∧ (s.rampWrite v q).speed = v ∧ 1 ≤ (s.rampWrite v q).dlyCnt.toNat :=
  have ⟨agree, speed⟩ := h.setSpeed_emit hv
  ⟨(agree.delayLoad _).goto q, speed, show 1 ≤ (40#11).toNat by decide⟩

theorem sgn_of_pos {v : Int} (h : 0 < v) : sgn v = 1 := if_pos h

theorem sgn_of_neg {v : Int} (h : v < 0) : sgn v = -1 := (if_neg (by omega)).trans (if_pos h)

/-- A reversal step takes the speed nearer to zero, and its sign stays until it is zero (R126). -/
theorem natAbs_and_sgn_of_sub_sgn {v : Int} (moving : v ≠ 0) :
    (v - sgn v).natAbs < v.natAbs ∧ (v - sgn v ≠ 0 → sgn (v - sgn v) = sgn v) := by
  rcases Int.lt_or_gt_of_ne moving with neg | pos
  · rw [sgn_of_neg neg]
    exact ⟨by omega, fun still => sgn_of_neg (by omega)⟩
  · rw [sgn_of_pos pos]
    exact ⟨by omega, fun still => sgn_of_pos (by omega)⟩

/-- A ramp step toward the target stays between the two (R131). -/
theorem add_stepDirection_between {c t : Int} (h : c ≠ t) :
    min c t ≤ c + stepDirection c t ∧ c + stepDirection c t ≤ max c t := by
  rcases stepDirection_cases c t with ⟨below, e⟩ | ⟨above, e⟩ <;> rw [e] <;> omega

/-- Two speeds the reversal comparator fires on have opposite signs (R123). -/
theorem sgn_of_reversal {c t : Int} (h : reversal c t = true) : c ≠ 0 ∧ sgn t = -sgn c := by
  have opposite : (0 < c ∧ t < 0) ∨ (c < 0 ∧ 0 < t) := by simpa [reversal] using h
  rcases opposite with ⟨pos, neg⟩ | ⟨neg, pos⟩
  · exact ⟨by omega, by rw [sgn_of_pos pos, sgn_of_neg neg]⟩
  · exact ⟨by omega, by rw [sgn_of_pos pos, sgn_of_neg neg, neg_neg]⟩

theorem stepInvariant_armRevStep (h : StepInvariant s) (hs : s.state = .revStep) : StepInvariant (armRevStep s) := by
  obtain ⟨fault, -, resume, moving, opposed⟩ : s.FitFor .revStep := hs ▸ h.fitFor
  obtain ⟨smaller, sameSign⟩ := natAbs_and_sgn_of_sub_sgn moving
  have range := h.listed.speedInRange
  obtain ⟨agree, speed, delay⟩ := h.registersAgree.rampWrite (v := s.speed - sgn s.speed) .revWait (by omega)
  refine agree.stepInvariant ⟨fault, delay, resume, ?_⟩
  rw [speed]
  exact fun still => opposed.trans (congrArg _ (sameSign still).symm)

theorem stepInvariant_armStop (h : StepInvariant s) (hs : s.state = .stop) : StepInvariant (armStop s) := by
  obtain ⟨fault, -, target⟩ : s.FitFor .stop := hs ▸ h.fitFor
  obtain ⟨agree, speed⟩ := h.registersAgree.setSpeed_emit (v := 0) (by omega)
  have range := Config_reverseBrakeMs_range s.cfg
  have delay : 1 ≤ (BitVec.ofNat 11 s.cfg.reverseBrakeMs).toNat := by
    rw [BitVec.toNat_ofNat]
    omega
  exact (agree.delayLoad _).stepInvariant_goto ⟨fault, delay, speed, target⟩

theorem State.setSpeed_self (s : State) : s.setSpeed s.speed = s := by simp [State.setSpeed, State.speed]

theorem stepInvariant_armRampStep (h : StepInvariant s) (hs : s.state = .rampStep) : StepInvariant (armRampStep s) := by
  obtain ⟨fault, -⟩ : s.FitFor .rampStep := hs ▸ h.fitFor
  have range := h.listed.speedInRange
  have targetRange := h.listed.targetInRange
  unfold armRampStep
  split
  case isTrue reached =>
    obtain ⟨agree, -⟩ := h.registersAgree.setSpeed_emit range
    rw [State.setSpeed_self] at agree
    exact agree.stepInvariant_goto ⟨fault, reached⟩
  case isFalse away =>
    have between := add_stepDirection_between away
    obtain ⟨agree, -, delay⟩ :=
      h.registersAgree.rampWrite (v := s.speed + stepDirection s.speed s.target) .rampWait (by omega)
    exact agree.stepInvariant ⟨fault, delay⟩

theorem stepInvariant_armRevWait (h : StepInvariant s) (hs : s.state = .revWait) (strobe : s.pwmWr = false) :
    StepInvariant (armRevWait s) := by
  obtain ⟨fault, -, resume, opposed⟩ : s.FitFor .revWait := hs ▸ h.fitFor
  have agree := h.registersAgree.tick
  unfold armRevWait
  split
  case isTrue =>
    split
    case isTrue => exact agree.stepInvariant_goto (q := .stop) (by simp [State.FitFor, fault, strobe, resume])
    case isFalse moving =>
      exact agree.stepInvariant_goto (q := .revStep)
        (by simpa [State.FitFor, fault, strobe, resume, moving] using opposed moving)
  case isFalse running => exact h.tick_of_running (.inl hs) (by simpa using running)

theorem stepInvariant_armBrakeWait (h : StepInvariant s) (hs : s.state = .brakeWait) (strobe : s.pwmWr = false) :
    StepInvariant (armBrakeWait s) := by
  obtain ⟨fault, -, speed, target⟩ : s.FitFor .brakeWait := hs ▸ h.fitFor
  have agree := h.registersAgree.tick
  unfold armBrakeWait
  split
  case isTrue =>
    split
    case isTrue => exact agree.stepInvariant_goto (q := .rampStep) (by simp [State.FitFor, fault, strobe])
    case isFalse stays =>
      exact agree.stepInvariant_goto (q := .idle) (by simp [State.FitFor, fault, speed, target (by simpa using stays)])
  case isFalse running => exact h.tick_of_running (.inr (.inl hs)) (by simpa using running)

theorem stepInvariant_armRampWait (h : StepInvariant s) (hs : s.state = .rampWait) (strobe : s.pwmWr = false) :
    StepInvariant (armRampWait s) := by
  obtain ⟨fault, -⟩ : s.FitFor .rampWait := hs ▸ h.fitFor
  unfold armRampWait
  split
  case isTrue => exact h.registersAgree.tick.stepInvariant_goto (q := .rampStep) (by simp [State.FitFor, fault, strobe])
  case isFalse running => exact h.tick_of_running (.inr (.inr hs)) (by simpa using running)

/-! ### The acceptance actions keep it -/

theorem stepInvariant_acceptSetTarget (h : StepInvariant s) (hs : s.state = .idle) (strobe : s.pwmWr = false) (req : Int) :
    StepInvariant (acceptSetTarget req s) := by
  obtain ⟨fault, -⟩ : s.FitFor .idle := hs ▸ h.fitFor
  obtain ⟨agree, target⟩ := h.registersAgree.latchTarget true (clamp_le s.cfg req)
  unfold acceptSetTarget
  split
  case isTrue reverses =>
    obtain ⟨moving, opposed⟩ := sgn_of_reversal reverses
    exact agree.stepInvariant_goto ⟨fault, strobe, rfl, moving, target.symm ▸ opposed⟩
  case isFalse => exact agree.stepInvariant_goto ⟨fault, strobe⟩

theorem stepInvariant_acceptStop (h : StepInvariant s) (hs : s.state = .idle) (strobe : s.pwmWr = false) :
    StepInvariant (acceptStop s) := by
  obtain ⟨fault, -⟩ : s.FitFor .idle := hs ▸ h.fitFor
  obtain ⟨agree, target⟩ := h.registersAgree.latchTarget (v := 0) false (by omega)
  exact agree.stepInvariant_goto ⟨fault, strobe, fun _ => target⟩

/-! ### The step keeps it -/

theorem StepInvariant.clearStrobe (h : StepInvariant s) : StepInvariant s.clearStrobe := by
  obtain ⟨speeds, dutyA, dutyB, presc⟩ := h.registersAgree
  refine RegistersAgree.stepInvariant ⟨speeds, dutyA, dutyB, presc⟩ ?_
  have fit := h.fitFor
  cases hs : s.state <;> simp_all [State.FitFor]

theorem StepInvariant.sequencerEdge (h : StepInvariant s) {accept : State → State}
    (ha : accept = acceptNone ∨ (∃ req, accept = acceptSetTarget req) ∨ accept = acceptStop) :
    StepInvariant (s.sequencerEdge accept) := by
  have cleared := h.clearStrobe
  have strobe := s.clearStrobe_pwmWr
  cases hs : s.state with
  | idle =>
    rw [sequencerEdge_idle accept hs]
    rcases ha with rfl | ⟨req, rfl⟩ | rfl
    · exact cleared
    · exact stepInvariant_acceptSetTarget cleared hs strobe req
    · exact stepInvariant_acceptStop cleared hs strobe
  | revStep => exact sequencerEdge_revStep accept hs ▸ stepInvariant_armRevStep cleared hs
  | revWait => exact sequencerEdge_revWait accept hs ▸ stepInvariant_armRevWait cleared hs strobe
  | stop => exact sequencerEdge_stop accept hs ▸ stepInvariant_armStop cleared hs
  | brakeWait => exact sequencerEdge_brakeWait accept hs ▸ stepInvariant_armBrakeWait cleared hs strobe
  | rampStep => exact sequencerEdge_rampStep accept hs ▸ stepInvariant_armRampStep cleared hs
  | rampWait => exact sequencerEdge_rampWait accept hs ▸ stepInvariant_armRampWait cleared hs strobe
  | fault => exact sequencerEdge_fault accept hs ▸ cleared

theorem StepInvariant.raiseFault (h : StepInvariant s) : StepInvariant s.raiseFault :=
  have ⟨speeds, dutyA, dutyB, presc⟩ := h.registersAgree
  RegistersAgree.stepInvariant (s := s.raiseFault) ⟨speeds, dutyA, dutyB, presc⟩ ⟨rfl, rfl⟩

/-- The invariant does not look at the environment. -/
theorem StepInvariant.withEnvironment (h : StepInvariant s) (events : List EnvEvent) (draws : Nat) (result : Option PortRead) :
    StepInvariant { s with pending := events, freeDraws := draws, hostResult := result } :=
  have ⟨speeds, dutyA, dutyB, presc⟩ := h.registersAgree
  RegistersAgree.stepInvariant ⟨speeds, dutyA, dutyB, presc⟩ h.fitFor

theorem StepInvariant.giveHost (h : StepInvariant s) (r : PortRead) : StepInvariant (s.giveHost r) :=
  h.withEnvironment s.pending s.freeDraws (some r)

theorem StepInvariant.popEvent (h : StepInvariant s) : StepInvariant s.popEvent := by
  unfold State.popEvent
  split
  case h_1 _ rest _ => exact h.withEnvironment rest s.freeDraws s.hostResult
  case h_2 => exact h.withEnvironment s.pending (s.freeDraws + 1) s.hostResult

theorem stepInvariant_resetRegs (s : State) : StepInvariant s.resetRegs :=
  RegistersAgree.stepInvariant ⟨⟨by simp, by simp⟩, rfl, rfl, Nat.zero_le _⟩ ⟨rfl, rfl, fun _ => rfl⟩

/-- Settles O50, by what a step can do and, for a sequencer edge, one lemma per arm and acceptance action. -/
theorem stepKeepsInvariant : Obligations.StepKeepsInvariant := by
  intro s t h ht
  have popped := h.popEvent
  rcases step_cases ht with ⟨r, -, rfl⟩ | ⟨inp, -, -, rfl⟩ | ⟨inp, -, -, -, -, rfl⟩ | ⟨inp, -, -, -, accept, ha, rfl⟩
  · exact popped.giveHost r
  · exact stepInvariant_resetRegs _
  · exact popped.raiseFault
  · exact popped.sequencerEdge (ha.imp_right And.right)

/-! ### Reset, and every reachable state -/

theorem stepInvariant_of_atReset (h : s.atReset) : StepInvariant s := h ▸ stepInvariant_resetRegs s

/-- Settles O49. -/
theorem resetMeetsInvariant : Obligations.ResetMeetsInvariant :=
  ⟨stepInvariant_of_atReset rfl, fun _ => stepInvariant_of_atReset⟩

/-- What every step keeps, every run keeps. -/
theorem run_preserves {P : State → Prop} (keeps : ∀ s t, P s → step s = .next t → P t) (k : Nat) (hs : P s)
    (run : Host.Core.run Sys2Proof.core k s = .next t) : P t := by
  induction k generalizing s with
  | zero => exact Host.Outcome.next.inj run ▸ hs
  | succ k ih =>
    simp only [Host.Core.run] at run
    split at run
    case h_1 u hu => exact ih (keeps s u hs hu) run
    case h_2 => cases run
    case h_3 => cases run

/-- Settles O51: the step invariant holds at reset and along every run, and contains R41. -/
theorem listedInvariantsAlwaysHold : Obligations.ListedInvariantsAlwaysHold :=
  fun k _ _ reset run => (run_preserves stepKeepsInvariant k (stepInvariant_of_atReset reset) run).listed

/-- Settles O18: each register and output of a state at reset is that of its own reset. -/
theorem resetValues : Obligations.ResetValues := by
  refine ⟨rfl, fun s (reset : s = s.resetRegs) => ?_⟩
  rw [reset]
  exact ⟨rfl, rfl, rfl, rfl, rfl, rfl, rfl, rfl, rfl, rfl, rfl, rfl, rfl, rfl, rfl⟩

end Sys2Proof.Machine
end

section
/-! The command port outside `IDLE` (R68): an edge there is a function of `rst`, `pwm_err` and the state. -/

namespace Sys2Proof.Machine

/-- R100 outside `IDLE`: a command on the port waits, so the last two branches of the edge are the same bare arm (R101). -/
theorem clockEdge_busy (inp : Inputs) {s : State} (busy : s.state ≠ .idle) :
    clockEdge inp s =
      if inp.rst then .next s.resetRegs
      else if inp.pwmErr && decide (s.state ≠ .fault) then .next s.raiseFault
      else .next (s.sequencerEdge acceptNone) := by
  have waits : exec (decode (wordOf inp)) s = .next (s.sequencerEdge acceptNone) :=
    exec_eq_acceptNone (decode_isCommand _) (.inl busy)
  rw [clockEdge, waits, ite_self]

/-- Settles O14: outside `IDLE` the edge reads no input but `rst` and `pwm_err`. -/
theorem commandPortIgnoredWhileBusy : Obligations.CommandPortIgnoredWhileBusy := by
  intro s inp inp' busy rst pwmErr
  rw [clockEdge_busy inp busy, clockEdge_busy inp' busy, rst, pwmErr]

end Sys2Proof.Machine
end

section
/-! The encoding's statements (R80 to R84, R87): what the decoder reads from a word's fields, that it inverts the encoder, and
the opcode map as match and mask. -/

namespace Sys2Proof

open Laws.OpcodeInWord (fields_cmdWord)

/-! ### The decoder, opcode by opcode -/

theorem OpField.cases : ∀ op : OpField, op = 0b00#2 ∨ op = 0b01#2 ∨ op = 0b10#2 ∨ op = 0b11#2 := by decide

variable {w w' : CmdWord} {sp : SpeedField} {i : Instr} {op : OpField}

theorem decode_eq_nop_iff : decode w = .nop ↔ opField w = 0b00#2 := by
  unfold decode
  split_ifs <;> simp_all

theorem decode_eq_setTarget_iff : decode w = .setTarget sp ↔ opField w = 0b01#2 ∧ speedField w = sp := by
  unfold decode
  split_ifs <;> simp_all

theorem decode_eq_stop_iff : decode w = .stop ↔ opField w = 0b10#2 := by
  unfold decode
  split_ifs <;> simp_all

theorem decode_eq_rsvd_iff : decode w = .rsvd ↔ opField w = 0b11#2 := by
  have := OpField.cases (opField w)
  unfold decode
  split_ifs <;> simp_all

/-- Every word is one of the four commands (R82). -/
theorem decode_cases (w : CmdWord) :
    decode w = .nop ∨ decode w = .setTarget (speedField w) ∨ decode w = .stop ∨ decode w = .rsvd := by
  simpa only [decode_eq_nop_iff, decode_eq_setTarget_iff, decode_eq_stop_iff, decode_eq_rsvd_iff, and_true]
    using OpField.cases (opField w)

/-- The decoded command has the word's opcode (R82). -/
theorem opcode?_decode (w : CmdWord) : (decode w).opcode? = some (opField w) := by
  rcases decode_cases w with h | h | h | h
  · rw [h, decode_eq_nop_iff.mp h]; rfl
  · rw [h, (decode_eq_setTarget_iff.mp h).1]; rfl
  · rw [h, decode_eq_stop_iff.mp h]; rfl
  · rw [h, decode_eq_rsvd_iff.mp h]; rfl

/-! ### The decoder after the encoder -/

theorem encode_of_opcode (h : i.opcode? = some op) : encode i = some (cmdWord op i.operandField) := by
  rw [encode, h]

/-- The canonical word of a command decodes to the command (R80 to R82). -/
theorem decode_cmdWord (h : i.opcode? = some op) : decode (cmdWord op i.operandField) = i := by
  obtain ⟨op_eq, speed_eq⟩ := fields_cmdWord op i.operandField
  cases i with
  | nop => cases h; exact decode_eq_nop_iff.mpr op_eq
  | setTarget sp => cases h; exact decode_eq_setTarget_iff.mpr ⟨op_eq, speed_eq⟩
  | stop => cases h; exact decode_eq_stop_iff.mpr op_eq
  | rsvd => cases h; exact decode_eq_rsvd_iff.mpr op_eq
  | currentSpeed => cases h
  | currentDirection => cases h

theorem decode_of_encode (h : encode i = some w) : decode w = i := by
  unfold encode at h
  split at h
  case h_1 op hop => cases h; exact decode_cmdWord hop
  case h_2 => cases h

/-- The commands are the instructions with an opcode (R82, R84). -/
theorem Instr.isCommand_eq_isSome_opcode? (i : Instr) : i.isCommand = i.opcode?.isSome := by cases i <;> rfl

/-- Settles O2: a command has an opcode and so a canonical word, which decodes to it; an accessor has none. -/
theorem decodeOfEncode : Obligations.DecodeOfEncode := by
  refine fun i => ⟨fun command => ?_, fun accessor => ?_⟩
  · rw [Instr.wellFormed, i.isCommand_eq_isSome_opcode?] at command
    obtain ⟨op, hop⟩ := Option.isSome_iff_exists.mp command
    exact ⟨_, encode_of_opcode hop, decode_cmdWord hop⟩
  · rw [Instr.wellFormed, i.isCommand_eq_isSome_opcode?, Option.isSome_eq_false_iff, Option.isNone_iff_eq_none] at accessor
    rw [encode, accessor]

/-! ### The encoder after the decoder -/

/-- A word is its two fields side by side (R80). -/
theorem cmdWord_fields (w : CmdWord) : cmdWord (opField w) (speedField w) = w := BitVec.extractLsb'_append_extractLsb'

/-- Settles O3: the canonical word of the decoded command keeps the opcode, and for `SET_TARGET` the operand too. -/
theorem encodeOfDecode : Obligations.EncodeOfDecode := by
  intro w
  have hop := opcode?_decode w
  refine ⟨_, encode_of_opcode hop, (fields_cmdWord _ _).1, decode_cmdWord hop, fun isSetTarget => ?_⟩
  rw [decode_eq_setTarget_iff.mpr ⟨isSetTarget, rfl⟩]
  exact cmdWord_fields w

/-! ### Match and mask -/

/-- The mask 0x30000 keeps the opcode and clears the operand. -/
theorem and_opMask (w : CmdWord) : w &&& 0x30000#18 = cmdWord (opField w) 0 :=
  calc w &&& 0x30000#18
    _ = (opField w ++ speedField w) &&& (BitVec.allOnes 2 ++ 0#16) := congrArg (· &&& 0x30000#18) (cmdWord_fields w).symm
    _ = (opField w &&& BitVec.allOnes 2) ++ (speedField w &&& 0#16) := BitVec.and_append
    _ = opField w ++ 0#16 := by rw [BitVec.and_allOnes, BitVec.and_zero]

theorem and_opMask_eq_iff : w &&& 0x30000#18 = cmdWord op 0 ↔ opField w = op := by
  rw [and_opMask]
  refine ⟨fun h => ?_, fun h => h ▸ rfl⟩
  rw [← (fields_cmdWord (opField w) 0).1, h, (fields_cmdWord op 0).1]

/-- Settles O4: each match is a canonical word with operand 0, so matching it is having its opcode. -/
theorem opcodeMapByMatchAndMask : Obligations.OpcodeMapByMatchAndMask := fun w =>
  ⟨(and_opMask_eq_iff (op := 0b00#2)).trans decode_eq_nop_iff.symm,
    (and_opMask_eq_iff (op := 0b01#2)).trans (decode_eq_setTarget_iff.trans (and_iff_left rfl)).symm,
    (and_opMask_eq_iff (op := 0b10#2)).trans decode_eq_stop_iff.symm,
    (and_opMask_eq_iff (op := 0b11#2)).trans decode_eq_rsvd_iff.symm,
    decode_cases w⟩

/-- Outside opcode 01 the operand is ignored (R81). -/
theorem decode_congr_opField (same : opField w = opField w') (h : opField w ≠ 0b01#2) : decode w = decode w' := by
  rcases OpField.cases (opField w) with hop | hop | hop | hop
  · rw [decode_eq_nop_iff.mpr hop, decode_eq_nop_iff.mpr (same ▸ hop)]
  · exact absurd hop h
  · rw [decode_eq_stop_iff.mpr hop, decode_eq_stop_iff.mpr (same ▸ hop)]
  · rw [decode_eq_rsvd_iff.mpr hop, decode_eq_rsvd_iff.mpr (same ▸ hop)]

/-- Settles O1: nine fixed words, evaluated. -/
theorem documentedWordsDecode : Obligations.DocumentedWordsDecode := by
  unfold Obligations.DocumentedWordsDecode
  decide

end Sys2Proof
end

section
/-! The operand's statements (R81, R86): the request a speed field carries, its saturation and clamp, and the pseudo-commands. -/

namespace Sys2Proof.Machine

/-! ### The request a speed field carries -/

theorem requested_range (sp : SpeedField) : -32768 ≤ requested sp ∧ requested sp ≤ 32767 :=
  ⟨BitVec.le_toInt sp, Int.le_of_lt_add_one BitVec.toInt_lt⟩

/-- An integer of 16 bits is the request of its own pattern. -/
theorem requested_ofInt {v : Int} (lo : -32768 ≤ v) (hi : v ≤ 32767) : requested (BitVec.ofInt 16 v) = v :=
  BitVec.toInt_ofInt_eq_self (by decide) lo (Int.lt_add_one_of_le hi)

theorem maxSpeed_le_256 (c : Config) : c.maxSpeed ≤ 256 := by
  rcases Config_maxSpeed_cases c with h | h <;> rw [h]
  decide

/-- Saturation to an interval that contains the speed range is undone by the clamp (R81, R122). -/
theorem clamp_saturate {c : Config} {lo hi : Int} (hlo : lo ≤ -(c.maxSpeed : Int)) (hhi : (c.maxSpeed : Int) ≤ hi) (v : Int) :
    clamp c (max lo (min hi v)) = clamp c v := by
  unfold clamp
  omega

theorem clamp_of_maxSpeed_le {c : Config} {v : Int} (h : (c.maxSpeed : Int) ≤ v) : clamp c v = c.maxSpeed := by
  unfold clamp
  omega

theorem clamp_of_le_neg_maxSpeed {c : Config} {v : Int} (h : v ≤ -(c.maxSpeed : Int)) : clamp c v = -(c.maxSpeed : Int) := by
  unfold clamp
  omega

/-- Settles O5: opcode 01 is read with its low half, the others without; 16 bits hold the saturated request, and the clamp
undoes the saturation. -/
theorem operandIsSignExtendedLowHalf : Obligations.OperandIsSignExtendedLowHalf := by
  refine ⟨fun w hop => ?_, fun _ _ => decode_congr_opField, fun c v => ?_⟩
  · exact ⟨decode_eq_setTarget_iff.mpr ⟨hop, rfl⟩, rfl, requested_range _⟩
  · have := maxSpeed_le_256 c
    rw [requested_ofInt (le_max_left _ _) (max_le (by decide) (min_le_left _ _))]
    exact clamp_saturate (by omega) (by omega) v

/-! ### The pseudo-commands -/

/-- Settles O53: in range, each expansion's pattern carries its operand, and the full ones lie beyond every speed range. -/
theorem pseudoCommandsExpand : Obligations.PseudoCommandsExpand := by
  have fullForward : requested (BitVec.ofInt 16 32767) = 32767 := requested_ofInt (by decide) (by decide)
  have fullReverse : requested (BitVec.ofInt 16 (-32768)) = -32768 := requested_ofInt (by decide) (by decide)
  refine ⟨fun n hn => ⟨_, if_pos hn, requested_ofInt (by omega) (by omega)⟩,
    fun n hn => ⟨_, if_pos hn, requested_ofInt (by omega) (by omega)⟩,
    fun n hn => if_neg (Nat.not_le.mpr hn), fun n hn => if_neg (Nat.not_le.mpr hn),
    ⟨_, rfl, rfl⟩, rfl, ⟨_, rfl, fullForward, fun c => ?_⟩, ⟨_, rfl, fullReverse, fun c => ?_⟩⟩
  all_goals have := maxSpeed_le_256 c
  · exact clamp_of_maxSpeed_le (by omega)
  · exact clamp_of_le_neg_maxSpeed (by omega)

end Sys2Proof.Machine
end

section
/-! Assembled programs (R83 to R86): what the assembler accepts of a line, and a program as its lines one by one. -/

namespace Sys2Proof.Machine

variable {i : Instr} {l : Line} {h : HostLine} {w : CmdWord} {ls : List Line} {hs : List HostLine} {k : Nat}

/-- An instruction that assembles may stand in a program, and its word decodes to it. -/
theorem assembleInstr_ok (ok : assembleInstr i = .ok h) : i.allowedInProgram = true ∧ ∃ w, h = .offer w ∧ decode w = i := by
  unfold assembleInstr at ok
  split at ok
  case h_1 => cases ok
  case h_2 w hw =>
    split at ok
    case isTrue allowed => cases ok; exact ⟨allowed, w, rfl, decode_of_encode hw⟩
    case isFalse => cases ok

/-- A pseudo-command that assembles is assembled as its expansion. -/
theorem assemble_pseudo_ok {p : Pseudo} (ok : (Line.pseudo p).assemble = .ok h) :
    ∃ i, p.expand = some i ∧ assembleInstr i = .ok h := by
  rw [Line.assemble] at ok
  split at ok
  case h_1 i hi => exact ⟨i, hi, ok⟩
  case h_2 => cases ok

/-- An offered word stands for an instruction that assembles: the directives offer nothing. -/
theorem assembleInstr_of_offer (ok : l.assemble = .ok (.offer w)) : ∃ i, assembleInstr i = .ok (.offer w) := by
  cases l with
  | cmd i => exact ⟨i, ok⟩
  | pseudo p =>
    obtain ⟨i, -, hi⟩ := assemble_pseudo_ok ok
    exact ⟨i, hi⟩
  | waitIdle => cases ok
  | hold n => cases ok

/-- A program assembles line by line. -/
theorem forall₂_assemble (ok : assembleProgram ls = .ok hs) : List.Forall₂ (fun l h => l.assemble = .ok h) ls hs := by
  induction ls generalizing hs with
  | nil => cases ok; exact .nil
  | cons l rest ih =>
    rw [assembleProgram] at ok
    split at ok
    case h_1 => cases ok
    case h_2 h hl =>
      split at ok
      case h_1 => cases ok
      case h_2 hs' hrest => cases ok; exact .cons hl (ih hrest)

/-- Line `k` of a program gives line `k` of the host's. -/
theorem assemble_of_getElem? (ok : assembleProgram ls = .ok hs) (hk : ls[k]? = some l) :
    ∃ h, hs[k]? = some h ∧ l.assemble = .ok h := by
  obtain ⟨length_eq, each⟩ := List.forall₂_iff_get.mp (forall₂_assemble ok)
  obtain ⟨hlt, rfl⟩ := List.getElem?_eq_some_iff.mp hk
  exact ⟨hs[k], List.getElem?_eq_getElem _, each k hlt (length_eq ▸ hlt)⟩

/-- Every line of the host comes from a line of the program. -/
theorem exists_line_of_mem (ok : assembleProgram ls = .ok hs) (mem : h ∈ hs) : ∃ l : Line, l.assemble = .ok h := by
  obtain ⟨length_eq, each⟩ := List.forall₂_iff_get.mp (forall₂_assemble ok)
  obtain ⟨k, hk, rfl⟩ := List.mem_iff_getElem.mp mem
  exact ⟨_, each k (length_eq ▸ hk) hk⟩

/-- Settles O54, line by line: a line's word is that of an instruction that assembles, which is allowed and decoded back. -/
theorem assembledProgramsAreAllowed : Obligations.AssembledProgramsAreAllowed := by
  intro ls hs ok
  refine ⟨fun i mem => ?_, (forall₂_assemble ok).length_eq.symm, fun k i hk => ?_, fun k p hk => ?_, fun k hk => ?_,
    fun k n hk => ?_, fun w mem => ?_⟩
  · obtain ⟨k, hk⟩ := List.mem_iff_getElem?.mp mem
    obtain ⟨_, -, hi⟩ := assemble_of_getElem? ok hk
    exact (assembleInstr_ok hi).1
  · obtain ⟨_, hh, hi⟩ := assemble_of_getElem? ok hk
    obtain ⟨-, w, rfl, hw⟩ := assembleInstr_ok hi
    exact ⟨w, hh, hw⟩
  · obtain ⟨_, hh, hp⟩ := assemble_of_getElem? ok hk
    obtain ⟨i, hexp, hi⟩ := assemble_pseudo_ok hp
    obtain ⟨-, w, rfl, hw⟩ := assembleInstr_ok hi
    exact ⟨i, w, hexp, hh, hw⟩
  · obtain ⟨_, hh, hl⟩ := assemble_of_getElem? ok hk
    cases hl
    exact hh
  · obtain ⟨_, hh, hl⟩ := assemble_of_getElem? ok hk
    cases hl
    exact hh
  · obtain ⟨l, hl⟩ := exists_line_of_mem ok mem
    obtain ⟨i, hi⟩ := assembleInstr_of_offer hl
    obtain ⟨allowed, _, offered, rfl⟩ := assembleInstr_ok hi
    cases offered
    intro reserved
    rw [reserved] at allowed
    cases allowed

end Sys2Proof.Machine
end

section
/-! The command interface's statements (R100 to R107): a step runs the decoded command, every step has a successor, and what a
command does when it waits, when it is `NOP` and when it is reserved. -/

namespace Sys2Proof.Machine

variable {s : State} {inp : Inputs}

/-! ### A command that waits -/

/-- Settles O13: outside `IDLE` every command is the bare arm of the state, which writes neither target register. -/
theorem commandsWaitWhileBusy : Obligations.CommandsWaitWhileBusy := fun s _ hi busy =>
  ⟨_, exec_eq_acceptNone hi (.inl busy), rfl, sequencerEdge_acceptNone_target s⟩

/-! ### Every step answers a next state -/

/-- Each row of the opcode table has an arm, and no arm stops the machine (R82). -/
theorem exec_total (i : Instr) (s : State) : ∃ t, exec i s = .next t := by
  cases i <;> exact ⟨_, rfl⟩

theorem clockEdge_total (inp : Inputs) (s : State) : ∃ t, clockEdge inp s = .next t := by
  rcases clockEdge_cases inp s with ⟨-, reset⟩ | ⟨-, -, -, fault⟩ | ⟨-, -, accept, -, arm⟩
  · exact ⟨_, reset⟩
  · exact ⟨_, fault⟩
  · exact ⟨_, arm⟩

theorem runEvent_total (e : EnvEvent) (s : State) : ∃ t, runEvent e s = .next t :=
  match e with
  | .edge inp => clockEdge_total inp s
  | .readSpeed => exec_total .currentSpeed s
  | .readDirection => exec_total .currentDirection s

/-- Settles O15, by induction on the number of steps. -/
theorem stepNeverStops : Obligations.StepNeverStops := by
  intro k
  induction k with
  | zero => exact fun s => ⟨s, rfl⟩
  | succ k ih =>
    intro s
    obtain ⟨u, hu⟩ : ∃ u, step s = .next u := runEvent_total _ _
    obtain ⟨t, ht⟩ := ih u
    exact ⟨t, (run_succ k hu).trans ht⟩

/-! ### The step and the decoded command -/

/-- R100 at an edge that neither reset nor a fault takes. -/
theorem clockEdge_untaken (rst : inp.rst = false) (err : inp.pwmErr = true → s.state = .fault) :
    clockEdge inp s =
      if inp.cmdValid then exec (decode (wordOf inp)) s else .next (s.sequencerEdge acceptNone) := by
  have noFault : ¬(inp.pwmErr && decide (s.state ≠ .fault)) = true := by simpa using err
  rw [clockEdge, if_neg (by simp [rst]), if_neg noFault]

theorem step_of_nextEvent {e : EnvEvent} (he : s.nextEvent = e) : step s = runEvent e s.popEvent := by
  rw [step, he]

theorem step_edge_untaken (he : s.nextEvent = .edge inp) (rst : inp.rst = false) (err : inp.pwmErr = true → s.state = .fault) :
    step s =
      if inp.cmdValid then exec (decode (wordOf inp)) s.popEvent else .next (s.popEvent.sequencerEdge acceptNone) :=
  (step_of_nextEvent he).trans (clockEdge_untaken rst fun h => s.popEvent_state.trans (err h))

/-- Taking an event writes the environment's fields only (log entry 4). -/
theorem State.popEvent_eq (s : State) :
    s.popEvent = { s with pending := s.popEvent.pending, freeDraws := s.popEvent.freeDraws } := by
  unfold State.popEvent
  split <;> rfl

/-- Settles O11, by R100's last two branches; in `IDLE` the bare arm is the strobe's default. -/
theorem stepRunsDecodedCommand : Obligations.StepRunsDecodedCommand := by
  refine ⟨fun s inp he rst err => ⟨fun valid => ?_, fun invalid => ?_⟩, fun s inp idle he rst err invalid => ?_,
    fun s he => step_of_nextEvent he, fun s he => step_of_nextEvent he, State.popEvent_eq, fun s e => ⟨rfl, rfl⟩⟩
  · rw [step_edge_untaken he rst err, if_pos valid, wordOf]
  · rw [step_edge_untaken he rst err, if_neg (by simp [invalid])]
  · rw [step_edge_untaken he rst (by simp [err]), if_neg (by simp [invalid]), sequencerEdge_idle _ (s.popEvent_state.trans idle)]
    rfl

/-! ### A placed word -/

/-- A word the decoder reads from a table row is the command word of the row's low 18 bits (R61, R80). -/
theorem decode_of_decodeTableWord {nbits w : Nat} {i : Instr} (h : decodeTableWord nbits w = some i) :
    decode (BitVec.ofNat 18 (w % 2 ^ nbits)) = i := by
  unfold decodeTableWord decodeBits at h
  split_ifs at h
  exact Option.some.inj h

theorem wordOf_offerInputs (w : CmdWord) : wordOf (offerInputs w) = w := cmdWord_fields w

/-- A word on offer in `IDLE` is accepted at the next edge and runs there (R101, R103). -/
theorem step_offerInIdle (s : State) (w : CmdWord) : step (s.offerInIdle w) = exec (decode w) (s.goto .idle) :=
  step_of_accepts (s := s.offerInIdle w) ⟨rfl, offerInputs w, rfl, rfl, rfl, rfl, congrArg decode (wordOf_offerInputs w)⟩

/-- Settles O12. -/
theorem placedWordRuns : Obligations.PlacedWordRuns := by
  intro s nbits w i h
  rw [State.withFetchWord, step_offerInIdle, decode_of_decodeTableWord h]
  rfl

/-! ### The two commands that do nothing -/

/-- A command that does nothing at acceptance is, in `IDLE`, the strobe's default alone (R104, R105). -/
theorem exec_idle_of_nop_or_rsvd {i : Instr} (hi : i = .nop ∨ i = .rsvd) (idle : s.state = .idle) :
    exec i s = .next s.clearStrobe := by
  have command : i.isCommand = true := by rcases hi with rfl | rfl <;> rfl
  rw [exec_eq_acceptNone command (.inr hi), sequencerEdge_idle acceptNone idle, acceptNone]

/-- Settles O23. -/
theorem nopChangesNothing : Obligations.NopChangesNothing :=
  ⟨fun _ idle => ⟨_, exec_idle_of_nop_or_rsvd (.inl rfl) idle, rfl, idle, rfl, rfl, rfl⟩,
    fun _ busy => exec_eq_acceptNone rfl (.inl busy)⟩

/-- Settles O24: `RSVD` and `NOP` are both the edge of no command, and `cmd_ready` does not look at the word. -/
theorem reservedActsAsNop : Obligations.ReservedActsAsNop := by
  refine ⟨fun s idle => exec_idle_of_nop_or_rsvd (.inr rfl) idle, fun s => ?sameAsNop, fun s inp idle valid _ => ?handshake,
    decode_eq_rsvd_iff.mpr rfl⟩
  case sameAsNop => rw [exec_eq_acceptNone rfl (.inr (.inr rfl)), exec_eq_acceptNone rfl (.inr (.inl rfl))]
  case handshake => simp [State.handshake, State.cmdReady, valid, idle]

end Sys2Proof.Machine
end

section
/-! The operand comparators of `SET_TARGET` (R122, R123) and its acceptance edge (R121, R124). -/

namespace Sys2Proof.Machine

variable {s : State} {sp : SpeedField}

/-! ### The clamp and the reversal comparator -/

theorem clamp_of_inRange {c : Config} {v : Int} (lo : -(c.maxSpeed : Int) ≤ v) (hi : v ≤ c.maxSpeed) : clamp c v = v := by
  unfold clamp
  omega

/-- A clamped value fits the 10 bits of `tgt_speed` (R122). -/
theorem toInt_ofInt_clamp (c : Config) (v : Int) : (BitVec.ofInt 10 (clamp c v)).toInt = clamp c v := by
  have ⟨lo, hi⟩ := clamp_le c v
  have small := maxSpeed_le_256 c
  exact BitVec.toInt_ofInt_eq_self (by decide) (by omega) (by omega)

/-- Settles O8, range by range. -/
theorem clampKeepsRange : Obligations.ClampKeepsRange := fun c v =>
  ⟨rfl, clamp_le c v, toInt_ofInt_clamp c v, clamp_of_inRange, fun above => clamp_of_maxSpeed_le above.le,
    fun below => clamp_of_le_neg_maxSpeed below.le⟩

theorem reversal_iff {c t : Int} : reversal c t = true ↔ (0 < c ∧ t < 0) ∨ (c < 0 ∧ 0 < t) := by
  simp [reversal]

/-- The comparator forms no product, but fires exactly when the product is negative (R123). -/
theorem reversal_iff_mul_neg {c t : Int} : reversal c t = true ↔ c * t < 0 := reversal_iff.trans mul_neg_iff.symm

theorem reversal_eq_false_iff {c t : Int} : reversal c t = false ↔ 0 ≤ c * t := by
  rw [← not_lt, ← reversal_iff_mul_neg, Bool.not_eq_true]

/-! ### The acceptance edge -/

theorem acceptSetTarget_state (req : Int) (s : State) :
    (acceptSetTarget req s).state = if reversal s.speed (clamp s.cfg req) then .revStep else .rampStep := rfl

theorem acceptSetTarget_target (req : Int) (s : State) : (acceptSetTarget req s).target = clamp s.cfg req :=
  toInt_ofInt_clamp s.cfg req

/-- `SET_TARGET` in `IDLE` is its acceptance action after the strobe's default (R103, R121). -/
theorem exec_setTarget_idle (idle : s.state = .idle) :
    exec (.setTarget sp) s = .next (acceptSetTarget (requested sp) s.clearStrobe) :=
  congrArg Host.Outcome.next (sequencerEdge_idle _ idle)

/-- Settles O25: the acceptance action is one record update. -/
theorem setTargetAcceptance : Obligations.SetTargetAcceptance := fun _ _ idle =>
  ⟨_, exec_setTarget_idle idle, acceptSetTarget_target _ _, rfl⟩

theorem step_of_accepts_setTarget (h : s.accepts (.setTarget sp)) :
    step s = .next (acceptSetTarget (requested sp) s.popEvent.clearStrobe) :=
  (step_of_accepts h).trans (exec_setTarget_idle (s.popEvent_state.trans h.1))

/-- The branch of an accepted `SET_TARGET` is taken on the speed before the edge and the clamped target (R123). -/
theorem exists_step_of_accepts_setTarget (h : s.accepts (.setTarget sp)) :
    ∃ t, step s = .next t ∧
      t.state = if reversal s.speed (clamp s.cfg (requested sp)) then .revStep else .rampStep :=
  ⟨_, step_of_accepts_setTarget h, by simp [acceptSetTarget_state]⟩

/-- Settles O9: the comparator is the sign of the product, and decides the branch. -/
theorem reversalIsNegativeProduct : Obligations.ReversalIsNegativeProduct := by
  refine ⟨fun c t => ⟨reversal_iff_mul_neg, reversal_iff⟩, fun s sp h => ?_⟩
  obtain ⟨t, ht, state⟩ := exists_step_of_accepts_setTarget h
  refine ⟨t, ht, fun negative => ?_, fun nonneg => ?_⟩
  · rw [state, reversal_iff_mul_neg.mpr negative, if_pos rfl]
  · rw [state, reversal_eq_false_iff.mpr nonneg, if_neg Bool.false_ne_true]

end Sys2Proof.Machine
end

section
/-! The arms of the two ramps (R126 to R133): what a quiet edge does in each of their states. -/

namespace Sys2Proof.Machine

variable {s : State}

/-! ### The write arms -/

theorem step_revStep (hs : s.state = .revStep) (quiet : quietEvent s.nextEvent = true) :
    step s = .next (s.popEvent.clearStrobe.rampWrite (s.speed - sgn s.speed) .revWait) := by
  rw [step_of_quiet_busy (by simp [hs]) quiet, sequencerEdge_revStep _ (s.popEvent_state.trans hs)]
  simp [armRevStep]

theorem step_rampStep_of_eq (hs : s.state = .rampStep) (reached : s.speed = s.target)
    (quiet : quietEvent s.nextEvent = true) :
    step s = .next ((s.popEvent.clearStrobe.emit s.speed).goto .idle) := by
  rw [step_of_quiet_busy (by simp [hs]) quiet, sequencerEdge_rampStep _ (s.popEvent_state.trans hs)]
  simp [armRampStep, reached]

theorem step_rampStep_of_ne (hs : s.state = .rampStep) (away : s.speed ≠ s.target)
    (quiet : quietEvent s.nextEvent = true) :
    step s = .next (s.popEvent.clearStrobe.rampWrite (s.speed + stepDirection s.speed s.target) .rampWait) := by
  rw [step_of_quiet_busy (by simp [hs]) quiet, sequencerEdge_rampStep _ (s.popEvent_state.trans hs)]
  simp [armRampStep, away]

theorem rampWrite_speed {v : Int} (q : SeqState) (lo : -512 ≤ v) (hi : v ≤ 511) : (s.rampWrite v q).speed = v :=
  s.setSpeed_speed lo hi

/-- The duties a write leaves are exactly the projection of the value, when that fits their nine bits (R180). -/
theorem emit_duties {v : Int} (lo : -511 ≤ v) (hi : v ≤ 511) :
    ((s.emit v).dutyA.toNat : Int) = max v 0 ∧ ((s.emit v).dutyB.toNat : Int) = max (-v) 0 :=
  ⟨ofInt_duty_toNat (by omega) (by omega), ofInt_duty_toNat (by omega) (by omega)⟩

theorem rampWrite_duties {v : Int} (q : SeqState) (lo : -511 ≤ v) (hi : v ≤ 511) :
    ((s.rampWrite v q).dutyA.toNat : Int) = max (s.rampWrite v q).speed 0 ∧
      ((s.rampWrite v q).dutyB.toNat : Int) = max (-(s.rampWrite v q).speed) 0 := by
  rw [rampWrite_speed q (by omega) hi]
  exact emit_duties (s := s.setSpeed v) lo hi

/-- A reversal step of a 10-bit speed stays within nine bits of magnitude, and takes one off it (R126). -/
theorem sub_sgn_of_range {v : Int} (range : -512 ≤ v ∧ v ≤ 511) :
    (-511 ≤ v - sgn v ∧ v - sgn v ≤ 511) ∧ (v ≠ 0 → (v - sgn v).natAbs = v.natAbs - 1) := by
  rcases sgn_cases v with ⟨pos, e⟩ | ⟨neg, e⟩ | ⟨zero, e⟩ <;> rw [e] <;> omega

/-- Settles O31, by what the write of a ramp step leaves. -/
theorem reversalStepArm : Obligations.ReversalStepArm := by
  intro s hs quiet
  obtain ⟨⟨lo, hi⟩, magnitude⟩ := sub_sgn_of_range s.speed_range
  have speed := rampWrite_speed (s := s.popEvent.clearStrobe) .revWait (by omega) hi
  have ⟨dutyA, dutyB⟩ := rampWrite_duties (s := s.popEvent.clearStrobe) .revWait lo hi
  refine ⟨_, step_revStep hs quiet, speed, fun moving => speed.symm ▸ magnitude moving, fun listed => ?_,
    dutyA, dutyB, rfl, rfl⟩
  simpa [hs] using (listed.reversalUnderWay (.inl hs)).2.1

/-- Settles O33: the final write is the emission of the speed. -/
theorem finalWriteArm : Obligations.FinalWriteArm := by
  intro s hs reached quiet
  refine ⟨_, step_rampStep_of_eq hs reached quiet, fun ⟨⟨lo, hi⟩, _⟩ => ?_, rfl⟩
  have small := maxSpeed_le_256 s.cfg
  exact emit_duties (s := s.popEvent.clearStrobe) (by omega) (by omega)

/-- A step toward the target of a 10-bit register stays in ten bits, so it is written exactly (R131, R137). -/
theorem speed_rampWrite_stepDirection (away : s.speed ≠ s.target) (p : State) (q : SeqState) :
    (p.rampWrite (s.speed + stepDirection s.speed s.target) q).speed = s.speed + stepDirection s.speed s.target := by
  have between := add_stepDirection_between away
  have speed := s.speed_range
  have target := s.target_range
  exact rampWrite_speed q (by omega) (by omega)

/-- Settles O34, by the step's direction and what the write of a ramp step leaves. -/
theorem rampStepArm : Obligations.RampStepArm := by
  intro s hs away quiet
  have speed := speed_rampWrite_stepDirection away s.popEvent.clearStrobe .rampWait
  refine ⟨_, step_rampStep_of_ne hs away quiet, fun below => ?_, fun above => ?_,
    fun ⟨speedRange, targetRange⟩ => ?_, rfl, rfl⟩
  · rw [speed, stepDirection, if_pos below]
  · rw [speed, stepDirection, if_neg (by omega), Int.sub_eq_add_neg]
  · have between := add_stepDirection_between away
    have small := maxSpeed_le_256 s.cfg
    exact rampWrite_duties .rampWait (by omega) (by omega)

/-! ### The wait arms -/

/-- Where the sequencer goes when the delay of a wait state is over (R127, R133, R158). -/
def State.afterWait (s : State) : SeqState :=
  match s.state with
  | .revWait => if s.speed = 0 then .stop else .revStep
  | .brakeWait => if s.resume then .rampStep else .idle
  | _ => .rampStep

/-- The delay timer is two registers, and a tick writes those two (R157). -/
theorem State.tick_eq (s : State) : s.tick = { s with dlyCnt := s.tick.dlyCnt, presc := s.tick.presc } := by
  unfold State.tick
  split <;> rfl

theorem State.tick_dlyCnt (s : State) :
    s.tick.dlyCnt = if s.presc = s.cfg.clkPerMs - 1 then s.dlyCnt - 1#11 else s.dlyCnt := by
  unfold State.tick
  split <;> rfl

theorem State.tick_presc (s : State) :
    s.tick.presc = if s.presc = s.cfg.clkPerMs - 1 then 0 else (s.presc + 1) % 2 ^ s.cfg.prescWidth := by
  unfold State.tick
  split <;> rfl

theorem State.goto_of_state_eq {q : SeqState} (h : s.state = q) : s.goto q = s := h ▸ rfl

/-- A wait state's arm is a tick, and at the end of the delay the way to the next state. -/
theorem armRevWait_eq (hs : s.state = .revWait) :
    armRevWait s = s.tick.goto (if s.tickDone then s.afterWait else s.state) := by
  simp only [armRevWait, State.afterWait, hs]
  split_ifs
  · rfl
  · rfl
  · exact (State.goto_of_state_eq (s.tick_state.trans hs)).symm

theorem armBrakeWait_eq (hs : s.state = .brakeWait) :
    armBrakeWait s = s.tick.goto (if s.tickDone then s.afterWait else s.state) := by
  simp only [armBrakeWait, State.afterWait, hs]
  split_ifs
  · rfl
  · rfl
  · exact (State.goto_of_state_eq (s.tick_state.trans hs)).symm

theorem armRampWait_eq (hs : s.state = .rampWait) :
    armRampWait s = s.tick.goto (if s.tickDone then s.afterWait else s.state) := by
  simp only [armRampWait, State.afterWait, hs]
  split_ifs
  · rfl
  · exact (State.goto_of_state_eq (s.tick_state.trans hs)).symm

theorem sequencerEdge_wait (accept : State → State)
    (wait : s.state = .revWait ∨ s.state = .brakeWait ∨ s.state = .rampWait) :
    s.sequencerEdge accept = s.clearStrobe.tick.goto (if s.tickDone then s.afterWait else s.state) := by
  rcases wait with hs | hs | hs
  · exact (sequencerEdge_revWait accept hs).trans (armRevWait_eq (s := s.clearStrobe) hs)
  · exact (sequencerEdge_brakeWait accept hs).trans (armBrakeWait_eq (s := s.clearStrobe) hs)
  · exact (sequencerEdge_rampWait accept hs).trans (armRampWait_eq (s := s.clearStrobe) hs)

/-- A quiet edge of a wait state ticks, with the strobe down, and leaves the state when the delay is over. -/
theorem step_of_wait (wait : s.state = .revWait ∨ s.state = .brakeWait ∨ s.state = .rampWait)
    (quiet : quietEvent s.nextEvent = true) :
    step s = .next { s.popEvent with
      pwmWr := false, dlyCnt := s.tick.dlyCnt, presc := s.tick.presc,
      state := if s.tickDone then s.afterWait else s.state } := by
  have busy : s.state ≠ .idle := by rcases wait with hs | hs | hs <;> simp [hs]
  rw [step_of_quiet_busy busy quiet, sequencerEdge_wait _ (s.popEvent_state.symm ▸ wait), State.tick_eq]
  simp [State.goto, State.clearStrobe, State.tick_dlyCnt, State.tick_presc, State.afterWait]

/-- Settles O32, a wait state's quiet edge. -/
theorem reversalWaitArm : Obligations.ReversalWaitArm := by
  intro s hs quiet
  rw [step_of_wait (.inl hs) quiet, State.afterWait, hs]

/-- Settles O35, a wait state's quiet edge. -/
theorem rampWaitArm : Obligations.RampWaitArm := by
  intro s hs quiet
  rw [step_of_wait (.inr (.inr hs)) quiet, State.afterWait, hs]

end Sys2Proof.Machine
end

section
/-! Properties of every step that the ramps have: zero is no reversal (R124), the speed counter moves by one (R125), and
a ramp stays on one side of zero (R138). -/

namespace Sys2Proof.Machine

variable {s : State} {accept : State → State}

/-! ### Zero is never a reversal -/

/-- A quiet edge keeps a ramp in the ramp states until it returns to `IDLE`: there is no way to a brake pause (R124). -/
theorem exists_step_of_ramping (hs : s.state = .rampStep ∨ s.state = .rampWait) (quiet : quietEvent s.nextEvent = true) :
    ∃ t, step s = .next t ∧ (t.state = .rampStep ∨ t.state = .rampWait ∨ t.state = .idle) := by
  rcases hs with hs | hs
  · by_cases reached : s.speed = s.target
    · exact ⟨_, step_rampStep_of_eq hs reached quiet, .inr (.inr rfl)⟩
    · exact ⟨_, step_rampStep_of_ne hs reached quiet, .inr (.inl rfl)⟩
  · refine ⟨_, step_of_wait (.inr (.inr hs)) quiet, ?_⟩
    rw [State.afterWait, hs]
    by_cases done : s.tickDone = true
    · exact .inl (if_pos done)
    · exact .inr (.inl (if_neg done))

/-- Settles O10: a product with 0 is not negative. -/
theorem zeroIsNeverReversal : Obligations.ZeroIsNeverReversal := by
  refine ⟨fun s sp h zero => ?_, fun s => exists_step_of_ramping⟩
  obtain ⟨t, ht, state⟩ := exists_step_of_accepts_setTarget h
  have direct : reversal s.speed (clamp s.cfg (requested sp)) = false :=
    reversal_eq_false_iff.mpr (mul_eq_zero.mpr zero).ge
  exact ⟨t, ht, by rw [state, direct, if_neg Bool.false_ne_true]⟩

/-! ### The speed counter -/

theorem armRevStep_speed (s : State) : (armRevStep s).speed = s.speed - sgn s.speed := by
  have range := sub_sgn_of_range s.speed_range
  exact rampWrite_speed .revWait (by omega) (by omega)

theorem armRampStep_speed_cases (s : State) :
    (armRampStep s).speed = s.speed ∨ (armRampStep s).speed = s.speed + 1 ∨ (armRampStep s).speed = s.speed - 1 := by
  unfold armRampStep
  split
  case isTrue => exact .inl rfl
  case isFalse away =>
    rw [speed_rampWrite_stepDirection away]
    rcases stepDirection_cases s.speed s.target with ⟨-, e⟩ | ⟨-, e⟩
    · exact .inr (.inl (by rw [e]))
    · exact .inr (.inr (by rw [e, Int.sub_eq_add_neg]))

theorem sequencerEdge_speed_cases
    (ha : accept = acceptNone ∨ (∃ req, accept = acceptSetTarget req) ∨ accept = acceptStop) :
    (s.sequencerEdge accept).speed = s.speed ∨
    ((s.state = .revStep ∨ s.state = .rampStep) ∧
      ((s.sequencerEdge accept).speed = s.speed + 1 ∨ (s.sequencerEdge accept).speed = s.speed - 1)) ∨
    ((s.sequencerEdge accept).speed = 0 ∧ s.state = .stop) := by
  by_cases rev : s.state = .revStep
  · rw [sequencerEdge_revStep accept rev, armRevStep_speed, State.clearStrobe_speed]
    rcases sgn_cases s.speed with ⟨-, e⟩ | ⟨-, e⟩ | ⟨-, e⟩
    · exact .inr (.inl ⟨.inl rev, .inr (by rw [e])⟩)
    · exact .inr (.inl ⟨.inl rev, .inl (by rw [e, sub_neg_eq_add])⟩)
    · exact .inl (by rw [e, sub_zero])
  by_cases ramp : s.state = .rampStep
  · rw [sequencerEdge_rampStep accept ramp]
    exact (armRampStep_speed_cases s.clearStrobe).imp_right fun moved => .inl ⟨.inr ramp, moved⟩
  by_cases stop : s.state = .stop
  · exact .inr (.inr ⟨by rw [sequencerEdge_stop accept stop]; rfl, stop⟩)
  · exact .inl (congrArg BitVec.toInt ((edgeFrame_sequencerEdge ha).outputs rev stop ramp).1)

/-- Settles O46, by what a step can do and, for a sequencer edge, its state. -/
theorem speedChangesByOne : Obligations.SpeedChangesByOne := by
  intro s t ht
  rcases step_cases ht with ⟨r, -, rfl⟩ | ⟨inp, he, rst, rfl⟩ | ⟨inp, -, -, -, -, rfl⟩ | ⟨inp, -, -, -, accept, ha, rfl⟩
  · exact .inl s.popEvent_speed
  · exact .inr (.inr ⟨rfl, .inr ⟨inp, he, rst⟩⟩)
  · exact .inl s.popEvent_speed
  · have changes := sequencerEdge_speed_cases (s := s.popEvent) (ha.imp_right And.right)
    rw [State.popEvent_speed, State.popEvent_state] at changes
    exact changes.imp_right (.imp_right (.imp_right .inl))

/-! ### A ramp stays on one side of zero -/

/-- A value between a speed and a target on the same side of zero is on that side too. -/
theorem mul_nonneg_of_between {c t v : Int} (side : 0 ≤ c * t) (between : min c t ≤ v ∧ v ≤ max c t) :
    0 ≤ v * t := by
  simp only [← reversal_eq_false_iff, ← Bool.not_eq_true, reversal_iff] at side ⊢
  omega

theorem rampsOnOneSide_of_state (h : s.state ≠ .rampStep ∧ s.state ≠ .rampWait) : s.RampsOnOneSide :=
  fun ramping => ramping.elim (absurd · h.1) (absurd · h.2)

theorem rampsOnOneSide_acceptSetTarget (req : Int) (s : State) : (acceptSetTarget req s).RampsOnOneSide := by
  intro ramping
  rw [acceptSetTarget_target]
  refine reversal_eq_false_iff.mp (Bool.eq_false_iff.mpr fun reverses => ?_)
  have reversing : (acceptSetTarget req s).state = .revStep := if_pos reverses
  simp [reversing] at ramping

theorem rampsOnOneSide_armRampStep (side : 0 ≤ s.speed * s.target) : (armRampStep s).RampsOnOneSide := by
  unfold armRampStep
  split
  case isTrue => exact rampsOnOneSide_of_state (by simp)
  case isFalse away =>
    intro _
    rw [speed_rampWrite_stepDirection away]
    exact mul_nonneg_of_between side (add_stepDirection_between away)

/-- An edge enters the ramp states by an acceptance that is no reversal, or from the brake pause with speed 0. -/
theorem rampsOnOneSide_sequencerEdge (brake : s.state = .brakeWait → s.speed = 0) (side : s.RampsOnOneSide)
    (ha : accept = acceptNone ∨ (∃ req, accept = acceptSetTarget req) ∨ accept = acceptStop) :
    (s.sequencerEdge accept).RampsOnOneSide := by
  cases hs : s.state with
  | idle =>
    rw [sequencerEdge_idle accept hs]
    rcases ha with rfl | ⟨req, rfl⟩ | rfl
    · exact rampsOnOneSide_of_state (by simp [acceptNone, hs])
    · exact rampsOnOneSide_acceptSetTarget req _
    · exact rampsOnOneSide_of_state (by simp [acceptStop])
  | revStep => rw [sequencerEdge_revStep accept hs]; exact rampsOnOneSide_of_state (by simp [armRevStep, State.rampWrite])
  | revWait =>
    rw [sequencerEdge_wait accept (.inl hs), State.afterWait, hs]
    refine rampsOnOneSide_of_state ?_
    rw [State.goto_state]
    split_ifs <;> simp
  | stop => rw [sequencerEdge_stop accept hs]; exact rampsOnOneSide_of_state (by simp [armStop])
  | brakeWait =>
    rw [sequencerEdge_wait accept (.inr (.inl hs))]
    intro _
    simp [brake hs]
  | rampStep => rw [sequencerEdge_rampStep accept hs]; exact rampsOnOneSide_armRampStep (side (.inl hs))
  | rampWait =>
    rw [sequencerEdge_wait accept (.inr (.inr hs))]
    intro _
    simpa using side (.inr hs)
  | fault => rw [sequencerEdge_fault accept hs]; exact rampsOnOneSide_of_state (by simp [hs])

/-- Settles O52, by what a step can do: only a sequencer edge enters or leaves a ramp state. -/
theorem rampNeverCrossesZero : Obligations.RampNeverCrossesZero := by
  refine ⟨fun s (reset : s = s.resetRegs) => rampsOnOneSide_of_state (reset ▸ by simp), fun s t h side ht => ?_⟩
  have popped : s.popEvent.RampsOnOneSide := by simpa [State.RampsOnOneSide] using side
  rcases step_cases ht with ⟨r, -, rfl⟩ | ⟨inp, -, -, rfl⟩ | ⟨inp, -, -, -, -, rfl⟩ | ⟨inp, -, -, -, accept, ha, rfl⟩
  · exact popped
  · exact rampsOnOneSide_of_state (by simp)
  · exact rampsOnOneSide_of_state (by simp)
  · exact rampsOnOneSide_sequencerEdge h.popEvent.brakeAtZero popped (ha.imp_right And.right)

end Sys2Proof.Machine
end

section
/-! Runs of quiet edges on which the block is busy: how they compose, and what a wait state, a write arm with its delay, and
the stop do in one (R134, R156 to R159). -/

namespace Sys2Proof.Machine

variable {s t u : State} {n j k : Nat} {evs evs' : List PwmEvent}

/-! ### Runs and their composition -/

/-- The first `j` of `j + k` quiet edges are quiet. -/
theorem quietFor_of_add (j k : Nat) (quiet : s.quietFor (j + k) = true) : s.quietFor j = true := by
  induction j generalizing s with
  | zero => rfl
  | succ j ih =>
    rw [Nat.succ_add, State.quietFor, Bool.and_eq_true] at quiet
    rw [State.quietFor, quiet.1, ih quiet.2, Bool.and_self]

theorem quietEvent_of_quietFor (quiet : s.quietFor (1 + k) = true) : quietEvent s.nextEvent = true := by
  rw [Nat.add_comm, State.quietFor, Bool.and_eq_true] at quiet
  exact quiet.1

/-- `k` edges, the first numbered `n + 1`, take `s` to `t` and make the events `evs`; the block is busy before each of them,
they use `k` events of the environment, and they write neither target register. -/
structure BusyRun (n k : Nat) (s t : State) (evs : List PwmEvent) : Prop where
  run : Host.Core.run Sys2Proof.core k s = .next t
  busy : ∀ j, j < k → ∃ u : State, Host.Core.run Sys2Proof.core j s = .next u ∧ u.busy = true
  trace : ∀ m, writeTrace (k + m) n s = evs ++ writeTrace m (n + k) t
  quiet : ∀ m, s.quietFor (k + m) = true → t.quietFor m = true
  cfg : t.cfg = s.cfg
  target : t.tgtSpeed = s.tgtSpeed
  resume : t.resume = s.resume

theorem BusyRun.refl (n : Nat) (s : State) : BusyRun n 0 s s [] :=
  ⟨rfl, fun _ h => absurd h (Nat.not_lt_zero _), fun m => by rw [Nat.zero_add]; rfl,
    fun m quiet => by rwa [Nat.zero_add] at quiet, rfl, rfl, rfl⟩

theorem BusyRun.trans (first : BusyRun n j s t evs) (second : BusyRun (n + j) k t u evs') :
    BusyRun n (j + k) s u (evs ++ evs') where
  run := (run_add j k first.run).trans second.run
  busy i hi := by
    rcases Nat.lt_or_ge i j with below | above
    · exact first.busy i below
    · obtain ⟨i, rfl⟩ := Nat.exists_eq_add_of_le above
      rw [run_add j i first.run]
      exact second.busy i (by omega)
  trace m := by rw [Nat.add_assoc, first.trace, second.trace, List.append_assoc, Nat.add_assoc]
  quiet m quiet := second.quiet m (first.quiet (k + m) (by rwa [← Nat.add_assoc]))
  cfg := second.cfg.trans first.cfg
  target := second.target.trans first.target
  resume := second.resume.trans first.resume

/-- One quiet edge of a busy block. -/
theorem busyRun_one (busy : s.busy = true) (quiet : quietEvent s.nextEvent = true) (ht : step s = .next t) :
    BusyRun n 1 s t (eventsAfter (n + 1) t) := by
  have running : s.state ≠ .idle := (by simpa [State.busy] using busy : s.state ≠ .idle ∧ s.state ≠ .fault).1
  obtain rfl : s.popEvent.sequencerEdge acceptNone = t :=
    Host.Outcome.next.inj ((step_of_quiet_busy running quiet).symm.trans ht)
  obtain ⟨pending, freeDraws, cfg, -⟩ := sequencerEdge_environment (s := s.popEvent) acceptNone (.inl rfl)
  obtain ⟨target, resume⟩ := sequencerEdge_acceptNone_target s.popEvent
  have env : SameEnv (s.popEvent.sequencerEdge acceptNone) s.popEvent := ⟨pending, freeDraws⟩
  refine ⟨run_succ 0 ht, fun j hj => ?_, fun m => ?_, fun m quietAll => ?_, cfg.trans s.popEvent_cfg,
    target.trans s.popEvent_tgtSpeed, resume.trans s.popEvent_resume⟩
  · obtain rfl : j = 0 := by omega
    exact ⟨s, rfl, busy⟩
  · rw [Nat.add_comm, writeTrace_succ_edge m n ht (isEdge_of_quiet quiet)]
  · rw [Nat.add_comm, State.quietFor, Bool.and_eq_true] at quietAll
    rw [env.quietFor]
    exact quietAll.2

/-! ### A wait state -/

/-- The edges a wait state still lasts, from its timer (R159). -/
def State.waitEdges (s : State) : Nat := s.dlyCnt.toNat * s.cfg.clkPerMs - s.presc

/-- The last edge of a delay finds the timer one edge before its end, and leaves it at zero. -/
theorem State.tick_of_done (done : s.tickDone = true) : s.waitEdges = 1 ∧ s.tick.dlyCnt = 0 ∧ s.tick.presc = 0 := by
  obtain ⟨last, one⟩ : s.presc = s.cfg.clkPerMs - 1 ∧ s.dlyCnt = 1#11 := by simpa [State.tickDone] using done
  have := Config_clkPerMs_pos s.cfg
  refine ⟨?_, ?_, ?_⟩
  · rw [State.waitEdges, last, one]
    show 1 * s.cfg.clkPerMs - (s.cfg.clkPerMs - 1) = 1
    omega
  · rw [State.tick_dlyCnt, if_pos last, one]
    rfl
  · rw [State.tick_presc, if_pos last]

theorem State.presc_lt_of_loaded (loaded : 1 ≤ s.dlyCnt.toNat) (presc : s.presc ≤ s.cfg.clkPerMs - 1) :
    s.presc < s.dlyCnt.toNat * s.cfg.clkPerMs := by
  have clk := Config_clkPerMs_pos s.cfg
  have whole : s.cfg.clkPerMs ≤ s.dlyCnt.toNat * s.cfg.clkPerMs := Nat.le_mul_of_pos_left _ loaded
  omega

/-- Every edge of a delay takes one edge off it. -/
theorem State.tick_waitEdges (loaded : 1 ≤ s.dlyCnt.toNat) (presc : s.presc ≤ s.cfg.clkPerMs - 1) :
    s.tick.waitEdges + 1 = s.waitEdges := by
  have lasts := State.presc_lt_of_loaded loaded presc
  have clk := Config_clkPerMs_pos s.cfg
  rw [State.waitEdges, State.waitEdges, State.tick_cfg, State.tick_dlyCnt, State.tick_presc]
  split
  case isTrue last =>
    have fall : (s.dlyCnt - 1#11).toNat = s.dlyCnt.toNat - 1 := by bv_omega
    rw [fall, Nat.sub_mul]
    omega
  case isFalse notLast =>
    have fits := clkPerMs_le_prescWidth s.cfg
    rw [Nat.mod_eq_of_lt (by omega)]
    omega

/-- `s` at the end of its delay, with the environment given: the timer at zero, no event, every other register as it was. -/
def State.waited (s : State) (events : List EnvEvent) (draws : Nat) : State :=
  { s with pending := events, freeDraws := draws, pwmWr := false, dlyCnt := 0, presc := 0, state := s.afterWait }

/-- A wait state lasts as long as its timer says, makes no event, and then goes on (R159). -/
theorem exists_busyRun_wait (wait : s.state = .revWait ∨ s.state = .brakeWait ∨ s.state = .rampWait)
    (loaded : 1 ≤ s.dlyCnt.toNat) (presc : s.presc ≤ s.cfg.clkPerMs - 1) (quiet : s.quietFor s.waitEdges = true) :
    ∃ events draws, BusyRun n s.waitEdges s (s.waited events draws) [] := by
  generalize edges : s.waitEdges = r at quiet ⊢
  induction r generalizing s n with
  | zero =>
    have lasts := State.presc_lt_of_loaded loaded presc
    rw [State.waitEdges] at edges
    omega
  | succ r ih =>
    have busy : s.busy = true := by rcases wait with hs | hs | hs <;> simp [State.busy, hs]
    have first := quietEvent_of_quietFor (Nat.add_comm r 1 ▸ quiet)
    have ticks := step_of_wait wait first
    rw [s.popEvent_eq] at ticks
    cases done : s.tickDone with
    | true =>
      obtain ⟨one, dlyCnt, presc⟩ := State.tick_of_done done
      obtain rfl : r = 0 := by omega
      rw [if_pos done, dlyCnt, presc] at ticks
      exact ⟨_, _, busyRun_one busy first ticks⟩
    | false =>
      have fewer := State.tick_waitEdges loaded presc
      rw [if_neg (by simp [done])] at ticks
      have one := busyRun_one (n := n) busy first ticks
      obtain ⟨events, draws, rest⟩ := ih (n := n + 1) (s := {
          s with pending := s.popEvent.pending, freeDraws := s.popEvent.freeDraws, pwmWr := false, dlyCnt := s.tick.dlyCnt,
                 presc := s.tick.presc })
        wait (State.tick_dlyCnt_pos loaded done) (State.tick_presc_le presc)
        (by rw [← Nat.add_right_cancel (fewer.trans edges), State.waitEdges, State.waitEdges, State.tick_cfg])
        (one.quiet r (Nat.add_comm r 1 ▸ quiet))
      exact ⟨events, draws, Nat.add_comm 1 r ▸ one.trans rest⟩

/-- An edge that loads a delay, and then the whole delay (R156, R159). -/
theorem exists_busyRun_load (busy : s.busy = true) (load : step s = .next u)
    (wait : u.state = .revWait ∨ u.state = .brakeWait ∨ u.state = .rampWait) (loaded : 1 ≤ u.dlyCnt.toNat)
    (restarted : u.presc = 0) (quiet : s.quietFor (1 + u.dlyCnt.toNat * u.cfg.clkPerMs) = true) :
    ∃ events draws,
      BusyRun n (1 + u.dlyCnt.toNat * u.cfg.clkPerMs) s (u.waited events draws) (eventsAfter (n + 1) u) := by
  have first := quietEvent_of_quietFor quiet
  have one := busyRun_one (n := n) busy first load
  have edges : u.waitEdges = u.dlyCnt.toNat * u.cfg.clkPerMs := by rw [State.waitEdges, restarted, Nat.sub_zero]
  obtain ⟨events, draws, rest⟩ :=
    exists_busyRun_wait (n := n + 1) wait loaded (restarted ▸ Nat.zero_le _) (edges ▸ one.quiet _ quiet)
  exact ⟨events, draws, List.append_nil (eventsAfter (n + 1) u) ▸ edges ▸ one.trans rest⟩

/-! ### One step of a ramp, and the stop -/

/-- The write of one step of either ramp, with its delay: P edges with one event, the first (R126, R127, R131, R133). -/
theorem exists_busyRun_rampWrite {v : Int} {q : SeqState} (busy : s.busy = true)
    (write : step s = .next (s.popEvent.clearStrobe.rampWrite v q)) (wait : q = .revWait ∨ q = .brakeWait ∨ q = .rampWait)
    (quiet : s.quietFor s.cfg.stepPeriod = true) :
    ∃ t, BusyRun n s.cfg.stepPeriod s t [projected (n + 1) v] ∧ t.speed = (s.rampWrite v q).speed ∧
      t.state = (s.rampWrite v q).afterWait := by
  rw [s.popEvent_eq] at write
  obtain ⟨events, draws, run⟩ :=
    exists_busyRun_load (n := n) busy write wait (show 1 ≤ (40#11).toNat by decide) rfl quiet
  exact ⟨_, run, rfl, rfl⟩

theorem step_stop (hs : s.state = .stop) (quiet : quietEvent s.nextEvent = true) :
    step s = .next (armStop s.popEvent.clearStrobe) := by
  rw [step_of_quiet_busy (by simp [hs]) quiet, sequencerEdge_stop _ (s.popEvent_state.trans hs)]

/-- The brake pause fits the delay counter (R156). -/
theorem toNat_ofNat_reverseBrakeMs (c : Config) : (BitVec.ofNat 11 c.reverseBrakeMs).toNat = c.reverseBrakeMs := by
  have := Config_reverseBrakeMs_range c
  exact Nat.mod_eq_of_lt (by omega)

/-- The stop: the zero-write, and the brake pause without an event (R152, R158). -/
theorem exists_busyRun_stop (hs : s.state = .stop) (quiet : s.quietFor (stopBusyEdges s.cfg) = true) :
    ∃ events draws, BusyRun n (stopBusyEdges s.cfg) s ((armStop s).waited events draws) [projected (n + 1) 0] := by
  have write := step_stop hs (quietEvent_of_quietFor quiet)
  rw [s.popEvent_eq] at write
  have pause := toNat_ofNat_reverseBrakeMs s.cfg
  have range := Config_reverseBrakeMs_range s.cfg
  have edges : stopBusyEdges s.cfg = 1 + (BitVec.ofNat 11 s.cfg.reverseBrakeMs).toNat * s.cfg.clkPerMs := by
    rw [pause]
    rfl
  rw [edges] at quiet ⊢
  exact exists_busyRun_load (by simp [State.busy, hs]) write (.inr (.inl rfl)) (pause.symm ▸ by omega) rfl quiet

end Sys2Proof.Machine
end

section
/-! A whole `SET_TARGET`, edge by edge (R134, R135, R139, R250). -/

namespace Sys2Proof.Machine

variable {s t : State} {sp : SpeedField} {n : Nat}

/-! ### The event table of a ramp -/

theorem rampEvents_succ (period e : Nat) (c d : Int) (m : Nat) :
    rampEvents period e c d (m + 1) = projected e (c + d) :: rampEvents period (e + period) (c + d) d m := by
  simp only [rampEvents, List.range_succ_eq_map, List.map_cons, List.map_map]
  refine congrArg₂ List.cons (by simp) (List.map_congr_left fun k _ => ?_)
  have edge : e + (k + 1) * period = e + period + k * period := by ring
  have value : c + ((k + 1 : Nat) + 1) * d = c + d + (k + 1) * d := by push_cast; ring
  simp only [Function.comp_apply, Nat.succ_eq_add_one, edge, value]

theorem natAbs_mul_sgn (v : Int) : v.natAbs * sgn v = v := by
  rcases sgn_cases v with ⟨pos, e⟩ | ⟨neg, e⟩ | ⟨zero, e⟩ <;> rw [e] <;> omega

theorem sgn_of_natAbs_pos {v : Int} (h : 0 < v.natAbs) : sgn v = 1 ∨ sgn v = -1 := by
  rcases sgn_cases v with ⟨-, e⟩ | ⟨-, e⟩ | ⟨zero, -⟩
  · exact .inl e
  · exact .inr e
  · omega

/-! ### The two ramps -/

/-- The block is back in `IDLE` right after the final write of `v` (R130). -/
structure State.WroteFinal (t : State) (v : Int) : Prop where
  idle : t.state = .idle
  speed : t.speed = v
  strobe : t.pwmWr = true
  dutyA : t.dutyA = BitVec.ofInt 9 (max v 0)
  dutyB : t.dutyB = BitVec.ofInt 9 (max (-v) 0)

/-- The ramp to the target, `m` steps away in direction `d`, and the final write (R130 to R133). -/
theorem exists_busyRun_ramp {d : Int} (m : Nat) (hs : s.state = .rampStep) (unit : 0 < m → d = 1 ∨ d = -1)
    (away : s.target = s.speed + m * d) (quiet : s.quietFor (m * s.cfg.stepPeriod + 1) = true) :
    ∃ t, BusyRun n (m * s.cfg.stepPeriod + 1) s t
        (rampEvents s.cfg.stepPeriod (n + 1) s.speed d m ++ [projected (n + 1 + m * s.cfg.stepPeriod) s.target]) ∧
      t.WroteFinal s.target := by
  induction m generalizing s n with
  | zero =>
    have reached : s.speed = s.target := by simpa using away.symm
    rw [Nat.zero_mul, Nat.zero_add] at quiet ⊢
    have first := quietEvent_of_quietFor (k := 0) quiet
    have write := step_rampStep_of_eq hs reached first
    have run := busyRun_one (n := n) (by simp [State.busy, hs]) first write
    rw [reached] at run
    exact ⟨_, run, rfl, by simpa using reached, rfl, rfl, rfl⟩
  | succ m ih =>
    have edges : (m + 1) * s.cfg.stepPeriod + 1 = s.cfg.stepPeriod + (m * s.cfg.stepPeriod + 1) := by ring
    rw [edges] at quiet ⊢
    obtain ⟨apart, toward⟩ : s.speed ≠ s.target ∧ stepDirection s.speed s.target = d := by
      rcases unit (Nat.succ_pos m) with rfl | rfl
      · exact ⟨by omega, if_pos (by omega)⟩
      · exact ⟨by omega, if_neg (by omega)⟩
    have first := quietFor_of_add _ _ quiet
    have write := step_rampStep_of_ne hs apart (quietEvent_of_quietFor first)
    obtain ⟨u, period, speed, state⟩ :=
      exists_busyRun_rampWrite (n := n) (by simp [State.busy, hs]) write (.inr (.inr rfl)) first
    rw [speed_rampWrite_stepDirection apart, toward] at speed
    rw [toward] at period
    have target : u.target = s.target := congrArg BitVec.toInt period.target
    have nearer : u.target = u.speed + m * d := by
      rw [target, speed, away]
      push_cast
      ring
    have quietRest := period.quiet _ quiet
    rw [← period.cfg] at quietRest
    obtain ⟨t, rest, final⟩ := ih (n := n + s.cfg.stepPeriod) state (fun _ => unit (Nat.succ_pos m)) nearer quietRest
    rw [period.cfg, speed, target] at rest
    have last : n + s.cfg.stepPeriod + 1 + m * s.cfg.stepPeriod = n + 1 + (m + 1) * s.cfg.stepPeriod := by ring
    rw [rampEvents_succ, ← last, Nat.add_right_comm n 1]
    exact ⟨t, period.trans rest, target ▸ final⟩

/-- The reversal ramp to 0, `m` steps away against the sign `d` (R126, R127). -/
theorem exists_busyRun_reversal {d : Int} (m : Nat) (hs : s.state = if s.speed = 0 then .stop else .revStep)
    (unit : 0 < m → d = 1 ∨ d = -1) (away : s.speed = m * d) (quiet : s.quietFor (m * s.cfg.stepPeriod) = true) :
    ∃ t, BusyRun n (m * s.cfg.stepPeriod) s t (rampEvents s.cfg.stepPeriod (n + 1) s.speed (-d) m) ∧
      t.state = .stop ∧ t.speed = 0 := by
  induction m generalizing s n with
  | zero =>
    have stopped : s.speed = 0 := by simpa using away
    rw [Nat.zero_mul]
    exact ⟨s, .refl n s, by rw [hs, if_pos stopped], stopped⟩
  | succ m ih =>
    have edges : (m + 1) * s.cfg.stepPeriod = s.cfg.stepPeriod + m * s.cfg.stepPeriod := by ring
    rw [edges] at quiet ⊢
    obtain ⟨moving, sign⟩ : s.speed ≠ 0 ∧ sgn s.speed = d := by
      rcases unit (Nat.succ_pos m) with rfl | rfl
      · exact ⟨by omega, sgn_of_pos (by omega)⟩
      · exact ⟨by omega, sgn_of_neg (by omega)⟩
    rw [if_neg moving] at hs
    have first := quietFor_of_add _ _ quiet
    obtain ⟨u, period, speed, state⟩ := exists_busyRun_rampWrite (n := n) (by simp [State.busy, hs])
      (step_revStep hs (quietEvent_of_quietFor first)) (.inl rfl) first
    have written : (s.rampWrite (s.speed - sgn s.speed) .revWait).speed = s.speed - sgn s.speed := armRevStep_speed s
    have stops : u.state = if u.speed = 0 then .stop else .revStep := by rw [state, speed]; rfl
    rw [written, sign, Int.sub_eq_add_neg] at speed
    rw [sign, Int.sub_eq_add_neg] at period
    have nearer : u.speed = m * d := by
      rw [speed, away]
      push_cast
      ring
    have quietRest := period.quiet _ quiet
    rw [← period.cfg] at quietRest
    obtain ⟨t, rest, stopped⟩ := ih (n := n + s.cfg.stepPeriod) stops (fun _ => unit (Nat.succ_pos m)) nearer quietRest
    rw [period.cfg, speed] at rest
    rw [rampEvents_succ, Nat.add_right_comm n 1]
    exact ⟨t, period.trans rest, stopped⟩

/-! ### The whole command -/

/-- Without a reversal the command is the ramp (R134). -/
theorem exists_busyRun_direct (hs : s.state = .rampStep) (direct : reversal s.speed s.target = false)
    (quiet : s.quietFor (setTargetBusyEdges s.cfg s.speed s.target) = true) :
    ∃ t, BusyRun n (setTargetBusyEdges s.cfg s.speed s.target) s t (setTargetEvents s.cfg n s.speed s.target) ∧
      t.WroteFinal s.target := by
  have away : s.target = s.speed + (s.target - s.speed).natAbs * sgn (s.target - s.speed) := by
    rw [natAbs_mul_sgn]
    ring
  simp only [setTargetBusyEdges, setTargetEvents, direct, if_neg Bool.false_ne_true, Nat.add_comm 1] at quiet ⊢
  exact exists_busyRun_ramp _ hs sgn_of_natAbs_pos away quiet

/-- A stop that resumes goes on with the ramp from 0 (R128, R158). -/
theorem exists_busyRun_stop_ramp (hs : s.state = .stop) (resume : s.resume = true)
    (quiet : s.quietFor (stopBusyEdges s.cfg + (s.target.natAbs * s.cfg.stepPeriod + 1)) = true) :
    ∃ t, BusyRun n (stopBusyEdges s.cfg + (s.target.natAbs * s.cfg.stepPeriod + 1)) s t
        (projected (n + 1) 0 ::
          (rampEvents s.cfg.stepPeriod (n + stopBusyEdges s.cfg + 1) 0 (sgn s.target) s.target.natAbs ++
            [projected (n + stopBusyEdges s.cfg + 1 + s.target.natAbs * s.cfg.stepPeriod) s.target])) ∧
      t.WroteFinal s.target := by
  obtain ⟨events, draws, pause⟩ := exists_busyRun_stop (n := n) hs (quietFor_of_add _ _ quiet)
  have state : ((armStop s).waited events draws).state = .rampStep := if_pos resume
  have speed : ((armStop s).waited events draws).speed = 0 := rfl
  have away : s.target = 0 + s.target.natAbs * sgn s.target := by rw [natAbs_mul_sgn, zero_add]
  obtain ⟨t, rest, final⟩ := exists_busyRun_ramp (n := n + stopBusyEdges s.cfg) s.target.natAbs state sgn_of_natAbs_pos
    (speed ▸ away) (pause.quiet _ quiet)
  rw [speed] at rest
  exact ⟨t, pause.trans rest, final⟩

/-- With a reversal the command is the ramp to 0, the stop with its brake pause, and the ramp from 0 (R128, R134). -/
theorem exists_busyRun_reversing (hs : s.state = .revStep) (resume : s.resume = true)
    (reverses : reversal s.speed s.target = true) (quiet : s.quietFor (setTargetBusyEdges s.cfg s.speed s.target) = true) :
    ∃ t, BusyRun n (setTargetBusyEdges s.cfg s.speed s.target) s t (setTargetEvents s.cfg n s.speed s.target) ∧
      t.WroteFinal s.target := by
  have edges : setTargetBusyEdges s.cfg s.speed s.target = s.speed.natAbs * s.cfg.stepPeriod +
      (stopBusyEdges s.cfg + (s.target.natAbs * s.cfg.stepPeriod + 1)) := by
    rw [setTargetBusyEdges, reverses, if_pos rfl, stopBusyEdges]
    ring
  rw [edges] at quiet ⊢
  have moving : s.speed ≠ 0 := (sgn_of_reversal reverses).1
  obtain ⟨u, down, stop, -⟩ := exists_busyRun_reversal (n := n) s.speed.natAbs (by rw [hs, if_neg moving])
    sgn_of_natAbs_pos (natAbs_mul_sgn _).symm (quietFor_of_add _ _ quiet)
  have target : u.target = s.target := congrArg BitVec.toInt down.target
  have quietStop := down.quiet _ quiet
  rw [← down.cfg, ← target] at quietStop
  obtain ⟨t, rest, final⟩ := exists_busyRun_stop_ramp (n := n + s.speed.natAbs * s.cfg.stepPeriod) stop
    (down.resume.trans resume) quietStop
  rw [down.cfg, target] at rest
  refine ⟨t, ?_, target ▸ final⟩
  have zeroWrite : n + 1 + s.speed.natAbs * s.cfg.stepPeriod = n + s.speed.natAbs * s.cfg.stepPeriod + 1 := by ring
  have resumes : n + 2 + s.speed.natAbs * s.cfg.stepPeriod + s.cfg.brakeEdges =
      n + s.speed.natAbs * s.cfg.stepPeriod + stopBusyEdges s.cfg + 1 := by
    rw [stopBusyEdges]
    ring
  rw [setTargetEvents, reverses, if_pos rfl, zeroWrite, resumes, List.append_assoc, List.append_assoc]
  exact down.trans rest

/-- A `SET_TARGET` from its acceptance edge, which makes no event, to its final write (R134, R250). -/
theorem exists_run_setTarget (h : s.accepts (.setTarget sp))
    (quiet : s.popEvent.quietFor (setTargetBusyEdges s.cfg s.speed (clamp s.cfg (requested sp))) = true) :
    ∃ u t, step s = .next u ∧ u.pwmWr = false ∧
      BusyRun n (setTargetBusyEdges s.cfg s.speed (clamp s.cfg (requested sp))) u t
        (setTargetEvents s.cfg n s.speed (clamp s.cfg (requested sp))) ∧
      t.target = clamp s.cfg (requested sp) ∧ t.WroteFinal (clamp s.cfg (requested sp)) := by
  have accepted := step_of_accepts_setTarget h
  generalize hu : acceptSetTarget (requested sp) s.popEvent.clearStrobe = u at accepted
  have env : SameEnv u s.popEvent := hu ▸ ⟨rfl, rfl⟩
  have cfg : u.cfg = s.cfg := hu ▸ s.popEvent_cfg
  have speed : u.speed = s.speed := hu ▸ s.popEvent_speed
  have target : u.target = clamp s.cfg (requested sp) := by
    rw [← hu, acceptSetTarget_target, State.clearStrobe_cfg, State.popEvent_cfg]
  have state : u.state = if reversal u.speed u.target then .revStep else .rampStep := by
    rw [speed, target, ← hu, acceptSetTarget_state, State.clearStrobe_speed, State.popEvent_speed, State.clearStrobe_cfg,
      State.popEvent_cfg]
  rw [← target, ← cfg, ← speed, ← env.quietFor] at quiet
  obtain ⟨t, run, final⟩ : ∃ t, BusyRun n (setTargetBusyEdges u.cfg u.speed u.target) u t
      (setTargetEvents u.cfg n u.speed u.target) ∧ t.WroteFinal u.target := by
    cases reverses : reversal u.speed u.target with
    | true => exact exists_busyRun_reversing (state.trans (if_pos reverses)) (hu ▸ rfl) reverses quiet
    | false => exact exists_busyRun_direct (state.trans (if_neg (by simp [reverses]))) reverses quiet
  have kept : t.target = u.target := congrArg BitVec.toInt run.target
  rw [target] at kept
  rw [cfg, speed, target] at run
  exact ⟨u, t, accepted, hu ▸ rfl, run, kept, target ▸ final⟩

/-- Settles O43: the run of the whole command, whose duties hold the clamped speed. -/
theorem setTargetReachesClampedSpeed : Obligations.SetTargetReachesClampedSpeed := by
  intro s sp h quiet
  obtain ⟨u, t, accepted, -, run, target, final⟩ := exists_run_setTarget (n := 1) h quiet
  have range := clamp_le s.cfg (requested sp)
  have small := maxSpeed_le_256 s.cfg
  refine ⟨fun j first last => ?_, t, ?_, final.idle, final.speed, target.trans final.speed.symm, ?_, ?_, final.strobe⟩
  · obtain ⟨j, rfl⟩ := Nat.exists_eq_add_of_le' first
    rw [run_succ j accepted]
    exact run.busy j last
  · rw [Nat.add_comm, run_succ _ accepted, run.run]
  · rw [final.dutyA, final.speed]
    exact ofInt_duty_toNat (by omega) (by omega)
  · rw [final.dutyB, final.speed]
    exact ofInt_duty_toNat (by omega) (by omega)

/-- The write trace of a whole `SET_TARGET` is R134's table: its acceptance edge makes no event. -/
theorem writeTrace_setTarget (h : s.accepts (.setTarget sp))
    (quiet : s.popEvent.quietFor (setTargetBusyEdges s.cfg s.speed (clamp s.cfg (requested sp))) = true) :
    writeTrace (1 + setTargetBusyEdges s.cfg s.speed (clamp s.cfg (requested sp))) n s =
      setTargetEvents s.cfg (n + 1) s.speed (clamp s.cfg (requested sp)) := by
  obtain ⟨u, t, accepted, strobe, run, -⟩ := exists_run_setTarget (n := n + 1) h quiet
  obtain ⟨-, inp, edge, -⟩ := h
  have rest := run.trace 0
  rw [writeTrace, List.append_nil] at rest
  rw [Nat.add_comm, writeTrace_succ_edge _ n accepted (edge ▸ rfl), eventsAfter, strobe]
  exact rest

/-- Settles O44: without a reversal R134's table is the ramp and the final write. -/
theorem directRampWriteTrace : Obligations.DirectRampWriteTrace := by
  intro s sp n h direct quiet
  have trace := writeTrace_setTarget (n := n) h
  simp only [setTargetBusyEdges, setTargetEvents, direct, if_neg Bool.false_ne_true] at trace
  exact trace quiet

/-- Settles O45, by the write trace of the whole command. -/
theorem reversalWriteTrace : Obligations.ReversalWriteTrace := fun _ _ _ h _ quiet => writeTrace_setTarget h quiet

end Sys2Proof.Machine
end

section
/-! The delay timer (R156, R157, R159): what a load and a tick leave, and how long a wait state lasts. -/

namespace Sys2Proof.Machine

variable {s : State}

/-! ### A load -/

/-- Settles O38: a length up to 2047 fits the counter's eleven bits, and so do both delays (R7). -/
theorem delayLoadRestartsPrescaler : Obligations.DelayLoadRestartsPrescaler := by
  refine ⟨fun s n _ fits => ⟨Nat.mod_eq_of_lt (by omega), rfl, rfl⟩, fun c => ?_⟩
  have ramp : c.rampStepDelayMs = 40 := rfl
  have brake := Config_reverseBrakeMs_range c
  omega

/-! ### A tick -/

theorem State.tickDone_iff : s.tickDone = true ↔ s.presc = s.cfg.clkPerMs - 1 ∧ s.dlyCnt.toNat = 1 := by
  have one : s.dlyCnt = 1#11 ↔ s.dlyCnt.toNat = 1 := BitVec.toNat_inj.symm
  rw [State.tickDone, Bool.and_eq_true, decide_eq_true_iff, decide_eq_true_iff, one]

/-- Within its range the prescaler counts without wrapping (R26). -/
theorem State.tick_presc_of_lt (below : s.presc < s.cfg.clkPerMs - 1) : s.tick.presc = s.presc + 1 := by
  have fits := clkPerMs_le_prescWidth s.cfg
  rw [State.tick_presc, if_neg (by omega), Nat.mod_eq_of_lt (by omega)]

/-- Settles O39, by the two branches of the tick. -/
theorem tickCountsOneCycle : Obligations.TickCountsOneCycle := by
  refine fun s => ⟨fun last loaded => ⟨?_, ?_, ?_⟩, fun below => ⟨State.tick_presc_of_lt below, ?_, ?_⟩, s.tick_eq⟩
  · rw [State.tick_presc, if_pos last]
  · rw [State.tick_dlyCnt, if_pos last]
    bv_omega
  · rw [State.tickDone_iff, and_iff_right last]
  · rw [State.tick_dlyCnt, if_neg (by omega)]
  · rw [← Bool.not_eq_true, State.tickDone_iff]
    omega

/-! ### A wait state -/

/-- A wait state with a delay under way, its timer in range (R41). -/
structure State.Waiting (s : State) : Prop where
  wait : s.state = .revWait ∨ s.state = .brakeWait ∨ s.state = .rampWait
  loaded : 1 ≤ s.dlyCnt.toNat
  presc : s.presc ≤ s.cfg.clkPerMs - 1

/-- Before the last edge of a delay a quiet edge keeps the wait state, with one edge fewer to go and no event. -/
theorem State.Waiting.exists_step (h : s.Waiting) (more : 1 < s.waitEdges) (quiet : quietEvent s.nextEvent = true) :
    ∃ u, step s = .next u ∧ u.Waiting ∧ u.state = s.state ∧ u.pwmWr = false ∧ u.waitEdges + 1 = s.waitEdges ∧
      SameEnv u s.popEvent := by
  obtain ⟨wait, loaded, presc⟩ := h
  have running : s.tickDone = false := by
    cases done : s.tickDone with
    | true => exact absurd (State.tick_of_done done).1 (by omega)
    | false => rfl
  have ticks := step_of_wait wait quiet
  have fewer := State.tick_waitEdges loaded presc
  rw [s.popEvent_eq, if_neg (by simp [running])] at ticks
  rw [State.waitEdges, State.tick_cfg] at fewer
  exact ⟨_, ticks, ⟨wait, State.tick_dlyCnt_pos loaded running, State.tick_presc_le presc⟩, rfl, rfl, fewer, rfl, rfl⟩

/-- Until its delay is over a block stays in the wait state, and no edge makes an event. -/
theorem State.Waiting.exists_run (j : Nat) (h : s.Waiting) (before : j < s.waitEdges) (quiet : s.quietFor j = true) :
    ∃ t : State, Host.Core.run Sys2Proof.core j s = .next t ∧ t.state = s.state ∧
      (s.pwmWr = false ∨ 1 ≤ j → t.pwmWr = false) := by
  induction j generalizing s with
  | zero => exact ⟨s, rfl, rfl, fun down => down.elim id (absurd · (by omega))⟩
  | succ j ih =>
    rw [State.quietFor, Bool.and_eq_true] at quiet
    obtain ⟨u, edge, waiting, state, strobe, fewer, env⟩ := h.exists_step (by omega) quiet.1
    obtain ⟨t, rest, stays, down⟩ := ih waiting (by omega) (env.quietFor j ▸ quiet.2)
    exact ⟨t, (run_succ j edge).trans rest, stays.trans state, fun _ => down (.inl strobe)⟩

/-- Settles O40: before the end of the delay by its single edges, at the end by the whole wait. -/
theorem delayLastsExactly : Obligations.DelayLastsExactly := by
  intro s wait loaded restarted quiet
  have presc : s.presc ≤ s.cfg.clkPerMs - 1 := restarted ▸ Nat.zero_le _
  have edges : s.waitEdges = s.dlyCnt.toNat * s.cfg.clkPerMs := by rw [State.waitEdges, restarted, Nat.sub_zero]
  rw [← edges] at quiet ⊢
  constructor
  · intro j before
    have first : s.quietFor j = true := quietFor_of_add j (s.waitEdges - j) (by rwa [Nat.add_sub_of_le before.le])
    obtain ⟨t, run, state, strobe⟩ := State.Waiting.exists_run j ⟨wait, loaded, presc⟩ before first
    exact ⟨t, run, state, fun later => strobe (.inr later)⟩
  · obtain ⟨events, draws, whole⟩ := exists_busyRun_wait (n := 0) wait loaded presc quiet
    refine ⟨_, whole.run, rfl, rfl, rfl, rfl, rfl, rfl, fun hs => ?_, fun hs => ?_, fun hs => ?_⟩ <;>
      simp only [State.waited, State.afterWait, hs]

end Sys2Proof.Machine
end

section
/-! `STOP` and the brake pause (R150 to R158): the acceptance edge, the two arms, and a whole command. -/

namespace Sys2Proof.Machine

variable {s : State} {n : Nat}

/-! ### The acceptance edge -/

/-- `STOP` in `IDLE` is its acceptance action after the strobe's default (R103, R150). -/
theorem exec_stop_idle (idle : s.state = .idle) : exec .stop s = .next (acceptStop s.clearStrobe) :=
  congrArg Host.Outcome.next (sequencerEdge_idle _ idle)

/-- Settles O26: the acceptance action is one record update. -/
theorem stopAcceptance : Obligations.StopAcceptance := fun _ idle => exec_stop_idle idle

theorem step_of_accepts_stop (h : s.accepts .stop) : step s = .next (acceptStop s.popEvent.clearStrobe) :=
  (step_of_accepts h).trans (exec_stop_idle (s.popEvent_state.trans h.1))

/-! ### The arms -/

/-- Settles O36, by the `STOP` arm after the strobe's default; the brake pause fits the counter. -/
theorem stopArmZeroes : Obligations.StopArmZeroes := by
  intro s hs quiet
  refine ⟨_, step_stop hs quiet, ?_, rfl⟩
  rw [← s.popEvent_cfg]
  exact toNat_ofNat_reverseBrakeMs s.popEvent.cfg

/-- Settles O37, a wait state's quiet edge. -/
theorem brakeWaitArm : Obligations.BrakeWaitArm := by
  intro s hs quiet
  rw [step_of_wait (.inr (.inl hs)) quiet, State.afterWait, hs]

/-! ### The whole command -/

/-- A `STOP` from its acceptance edge, which makes no event, to the end of the brake pause (R153). -/
theorem exists_run_stop (h : s.accepts .stop) (quiet : s.popEvent.quietFor (stopBusyEdges s.cfg) = true) :
    ∃ u events draws, step s = .next u ∧ u.pwmWr = false ∧ u.target = 0 ∧ u.resume = false ∧
      BusyRun n (stopBusyEdges s.cfg) u ((armStop u).waited events draws) [⟨n + 1, 0, 0⟩] := by
  have accepted := step_of_accepts_stop h
  generalize hu : acceptStop s.popEvent.clearStrobe = u at accepted
  have env : SameEnv u s.popEvent := hu ▸ ⟨rfl, rfl⟩
  have cfg : u.cfg = s.cfg := hu ▸ s.popEvent_cfg
  rw [← cfg, ← env.quietFor] at quiet
  obtain ⟨events, draws, run⟩ := exists_busyRun_stop (n := n) (hu ▸ rfl) quiet
  exact ⟨u, events, draws, accepted, hu ▸ rfl, hu ▸ rfl, hu ▸ rfl, cfg ▸ run⟩

/-- Settles O42: the acceptance edge makes no event, and the arm's zero-write is the one of the run. -/
theorem stopRunsEdgeByEdge : Obligations.StopRunsEdgeByEdge := by
  intro s n h quiet
  obtain ⟨u, events, draws, accepted, strobe, target, resume, run⟩ := exists_run_stop (n := n + 1) h quiet
  obtain ⟨-, inp, edge, -⟩ := h
  have idle : ((armStop u).waited events draws).state = .idle := if_neg (ne_true_of_eq_false resume)
  refine ⟨fun j first last => ?busy, ⟨(armStop u).waited events draws, ?run, idle, rfl, target, rfl, rfl, resume⟩, ?trace⟩
  case busy =>
    obtain ⟨j, rfl⟩ := Nat.exists_eq_add_of_le' first
    rw [run_succ j accepted]
    exact run.busy j last
  case run => rw [Nat.add_comm, run_succ _ accepted, run.run]
  case trace =>
    rw [Nat.add_comm, writeTrace_succ_edge _ n accepted (edge ▸ rfl), eventsAfter, strobe]
    exact run.trace 0

end Sys2Proof.Machine
end

section
/-! The outputs' statements (R180 to R186, R191) and the dead state (R203): the accessor ports, the status outputs, the ways out
of `IDLE`, `FAULT` held over a run, and the write arms as the only source of PWM update events. -/

namespace Sys2Proof.Machine

variable {s t : State} {accept : State → State}

/-! ### The accessor ports -/

/-- Settles O28: the meaning is one record update. -/
theorem currentSpeedReadsPort : Obligations.CurrentSpeedReadsPort := fun _ => ⟨rfl, rfl⟩

theorem dirCode_of_pos {v : Int} (pos : 0 < v) : dirCode v = 0b01#2 := if_pos pos

theorem dirCode_of_neg {v : Int} (neg : v < 0) : dirCode v = 0b10#2 := (if_neg (by omega)).trans (if_pos neg)

theorem dirCode_zero : dirCode 0 = 0b00#2 := rfl

theorem dirCode_ne_three (v : Int) : dirCode v ≠ 0b11#2 := by
  rcases lt_trichotomy v 0 with neg | rfl | pos
  · rw [dirCode_of_neg neg]; decide
  · rw [dirCode_zero]; decide
  · rw [dirCode_of_pos pos]; decide

/-- Settles O29: the port is the direction code of the speed. -/
theorem currentDirectionReadsSign : Obligations.CurrentDirectionReadsSign := fun s =>
  ⟨rfl, dirCode_of_pos, dirCode_of_neg, fun zero => (congrArg dirCode zero).trans dirCode_zero, dirCode_ne_three s.speed⟩

/-! ### The status outputs -/

theorem State.cmdReady_iff : s.cmdReady = true ↔ s.state = .idle := decide_eq_true_iff

theorem State.busy_iff : s.busy = true ↔ s.state ≠ .idle ∧ s.state ≠ .fault := by
  rw [State.busy, Bool.and_eq_true, decide_eq_true_iff, decide_eq_true_iff]

/-- A block that is neither ready nor busy is dead (R186). -/
theorem State.neither_ready_nor_busy_iff : s.cmdReady = false ∧ s.busy = false ↔ s.state = .fault := by
  rw [← Bool.not_eq_true, ← Bool.not_eq_true, State.cmdReady_iff, State.busy_iff]
  constructor
  · rintro ⟨notIdle, notBusy⟩
    exact by_contra fun alive => notBusy ⟨notIdle, alive⟩
  · intro dead
    simp [dead]

/-- Settles O30, the last clause by R41's item 6. -/
theorem statusOutputs : Obligations.StatusOutputs := fun _ =>
  ⟨State.cmdReady_iff, State.busy_iff, State.neither_ready_nor_busy_iff,
    fun listed => State.neither_ready_nor_busy_iff.trans listed.faultBit.symm⟩

/-! ### The ways out of `IDLE` -/

/-- In `IDLE` an edge that neither reset nor a fault takes stays there unless it accepts `SET_TARGET` or `STOP` (R103 to
R105). -/
theorem state_of_idle_edge {inp : Inputs} (idle : s.state = .idle) (he : s.nextEvent = .edge inp) (rst : inp.rst = false)
    (err : inp.pwmErr = false) (ht : step s = .next t) :
    t.state = .idle ∨ (∃ sp, s.accepts (.setTarget sp)) ∨ s.accepts .stop := by
  have popped : s.popEvent.state = .idle := s.popEvent_state.trans idle
  have accepts {i : Instr} (valid : inp.cmdValid = true) (hd : decode (wordOf inp) = i) : s.accepts i :=
    ⟨idle, inp, he, rst, err, valid, hd⟩
  have stays (cleared : Host.Outcome.next s.popEvent.clearStrobe = step s) : t.state = .idle :=
    Host.Outcome.next.inj (cleared.trans ht) ▸ popped
  rw [step_edge_untaken he rst (by simp [err])] at stays
  split_ifs at stays with valid
  · rcases decode_cases (wordOf inp) with hd | hd | hd | hd
    · exact .inl (stays (exec_idle_of_nop_or_rsvd (.inl hd) popped).symm)
    · exact .inr (.inl ⟨_, accepts valid hd⟩)
    · exact .inr (.inr (accepts valid hd))
    · exact .inl (stays (exec_idle_of_nop_or_rsvd (.inr hd) popped).symm)
  · exact .inl (stays (congrArg _ (sequencerEdge_idle acceptNone popped).symm))

/-- Settles O16, by what a step can do: an accessor's answer keeps the state, and an edge that neither reset nor a fault
takes leaves `IDLE` by one of the two commands. -/
theorem onlyCommandsLeaveIdle : Obligations.OnlyCommandsLeaveIdle := by
  intro s t idle ht leaves
  rcases step_cases ht with ⟨r, -, rfl⟩ | ⟨inp, he, rst, -⟩ | ⟨inp, he, -, err, -, -⟩ | ⟨inp, he, rst, err, -⟩
  · exact absurd (s.popEvent_state.trans idle) leaves
  · exact .inr (.inr ⟨inp, he, .inl rst⟩)
  · exact .inr (.inr ⟨inp, he, .inr err⟩)
  · have noErr : inp.pwmErr = false := by simpa [idle] using err
    exact ((state_of_idle_edge idle he rst noErr ht).resolve_left leaves).imp_right .inl

/-! ### `FAULT` held -/

/-- From `s` to `t` every register has held but the strobe, which has not come up. -/
structure RegistersHeld (s t : State) : Prop where
  registers : t = { s with
    pending := t.pending, freeDraws := t.freeDraws, hostResult := t.hostResult, pwmWr := t.pwmWr }
  strobe : s.pwmWr = false → t.pwmWr = false

theorem RegistersHeld.refl (s : State) : RegistersHeld s s := ⟨rfl, id⟩

theorem RegistersHeld.trans {u : State} (first : RegistersHeld s t) (second : RegistersHeld t u) :
    RegistersHeld s u :=
  ⟨second.registers.trans (by rw [first.registers]), second.strobe ∘ first.strobe⟩

theorem RegistersHeld.state (h : RegistersHeld s t) : t.state = s.state := by rw [h.registers]

theorem registersHeld_popEvent (s : State) : RegistersHeld s s.popEvent :=
  ⟨by unfold State.popEvent; split <;> rfl, s.popEvent_pwmWr.trans⟩

/-- A step of a dead block without reset clears the strobe or answers an accessor call (R203). -/
theorem exists_step_of_fault {k : Nat} (dead : s.state = .fault) (noReset : s.noResetFor (k + 1) = true) :
    ∃ t, step s = .next t ∧ RegistersHeld s t ∧ t.noResetFor k = true := by
  obtain ⟨t, ht⟩ : ∃ t, step s = .next t := runEvent_total _ _
  have popped := registersHeld_popEvent s
  simp only [State.noResetFor, Bool.and_eq_true] at noReset
  obtain ⟨noResetNow, noResetLater⟩ := noReset
  suffices h : RegistersHeld s t ∧ SameEnv s.popEvent t from ⟨t, ht, h.1, h.2.noResetFor k ▸ noResetLater⟩
  rcases step_cases ht with ⟨r, -, rfl⟩ | ⟨inp, he, rst, rfl⟩ | ⟨inp, -, -, -, alive, rfl⟩ | ⟨inp, -, -, -, accept, -, rfl⟩
  · exact ⟨popped.trans ⟨rfl, id⟩, rfl, rfl⟩
  · simp [he, rst] at noResetNow
  · exact absurd dead alive
  · rw [sequencerEdge_fault accept (s.popEvent_state.trans dead)]
    exact ⟨popped.trans ⟨rfl, fun _ => rfl⟩, rfl, rfl⟩

theorem exists_run_of_fault (k : Nat) (dead : s.state = .fault) (noReset : s.noResetFor k = true) :
    ∃ t, Host.Core.run Sys2Proof.core k s = .next t ∧ RegistersHeld s t := by
  induction k generalizing s with
  | zero => exact ⟨s, rfl, .refl s⟩
  | succ k ih =>
    obtain ⟨u, hu, held, later⟩ := exists_step_of_fault dead noReset
    obtain ⟨t, run, held'⟩ := ih (held.state.trans dead) later
    exact ⟨t, (run_succ k hu).trans run, held.trans held'⟩

/-- Settles O21, by induction on the number of steps. -/
theorem faultHoldsUntilReset : Obligations.FaultHoldsUntilReset := by
  intro k s dead noReset
  obtain ⟨t, run, held⟩ := exists_run_of_fault k dead noReset
  refine ⟨t, run, held.state.trans dead, ?_⟩
  have holds {α : Type} (f : State → α) := congrArg f held.registers
  exact ⟨holds State.fault, holds State.curSpeed, holds State.tgtSpeed, holds State.resume, holds State.dlyCnt,
    holds State.presc, holds State.dutyA, holds State.dutyB, held.strobe⟩

/-! ### PWM update events -/

/-- The states whose arm writes the channels (R181). -/
def State.InWriteArm (s : State) : Prop := s.state = .revStep ∨ s.state = .stop ∨ s.state = .rampStep

@[simp] theorem State.popEvent_inWriteArm : s.popEvent.InWriteArm ↔ s.InWriteArm := by simp [State.InWriteArm]

@[simp] theorem State.popEvent_speedsInRange : s.popEvent.SpeedsInRange ↔ s.SpeedsInRange := by simp [State.SpeedsInRange]

theorem armRampStep_pwmWr (s : State) : (armRampStep s).pwmWr = true := by
  unfold armRampStep
  split <;> rfl

/-- A sequencer edge outside the write arms holds the duties, with the strobe down. -/
theorem sequencerEdge_outputs_of_not_inWriteArm
    (ha : accept = acceptNone ∨ (∃ req, accept = acceptSetTarget req) ∨ accept = acceptStop) (rest : ¬s.InWriteArm) :
    (s.sequencerEdge accept).dutyA = s.dutyA ∧ (s.sequencerEdge accept).dutyB = s.dutyB ∧
      (s.sequencerEdge accept).pwmWr = false := by
  simp only [State.InWriteArm, not_or] at rest
  obtain ⟨rev, stop, ramp⟩ := rest
  exact ((edgeFrame_sequencerEdge ha).outputs rev stop ramp).2

theorem sequencerEdge_pwmWr_of_inWriteArm (accept : State → State) (write : s.InWriteArm) :
    (s.sequencerEdge accept).pwmWr = true := by
  rcases write with hs | hs | hs
  · rw [sequencerEdge_revStep accept hs]; rfl
  · rw [sequencerEdge_stop accept hs]; rfl
  · rw [sequencerEdge_rampStep accept hs]; exact armRampStep_pwmWr _

/-- The duties are exactly the projection of the speed (R180). -/
def State.DutiesProject (s : State) : Prop :=
  (s.dutyA.toNat : Int) = max s.speed 0 ∧ (s.dutyB.toNat : Int) = max (-s.speed) 0

theorem dutiesProject_armRevStep (s : State) : (armRevStep s).DutiesProject :=
  have ⟨lo, hi⟩ := (sub_sgn_of_range s.speed_range).1
  rampWrite_duties .revWait lo hi

theorem dutiesProject_armStop (s : State) : (armStop s).DutiesProject := ⟨rfl, rfl⟩

theorem dutiesProject_armRampStep (range : s.SpeedsInRange) : (armRampStep s).DutiesProject := by
  obtain ⟨speed, target⟩ := range
  have small := maxSpeed_le_256 s.cfg
  unfold armRampStep
  split
  case isTrue => exact emit_duties (s := s) (by omega) (by omega)
  case isFalse away =>
    have between := add_stepDirection_between away
    exact rampWrite_duties .rampWait (by omega) (by omega)

theorem dutiesProject_sequencerEdge (accept : State → State) (write : s.InWriteArm) (range : s.SpeedsInRange) :
    (s.sequencerEdge accept).DutiesProject := by
  rcases write with hs | hs | hs
  · rw [sequencerEdge_revStep accept hs]; exact dutiesProject_armRevStep _
  · rw [sequencerEdge_stop accept hs]; exact dutiesProject_armStop _
  · rw [sequencerEdge_rampStep accept hs]; exact dutiesProject_armRampStep range

/-- Settles O47, by what an edge can do: of reset, fault entry and a sequencer edge, only the last in a write arm raises the
strobe, and only reset writes the duties with the strobe down. -/
theorem eventsComeFromWriteArms : Obligations.EventsComeFromWriteArms := by
  intro s t ht edge
  rcases step_cases ht with ⟨r, read, -⟩ | ⟨inp, -, -, rfl⟩ | ⟨inp, -, -, -, -, rfl⟩ | ⟨inp, -, -, -, accept, ha, rfl⟩
  · rcases read with he | he <;> simp [he, isEdge] at edge
  · exact ⟨fun up => by simp at up, fun _ => .inr rfl⟩
  · exact ⟨fun up => by simp at up, fun _ => .inl ⟨s.popEvent_dutyA, s.popEvent_dutyB⟩⟩
  · by_cases write : s.popEvent.InWriteArm
    · have up := sequencerEdge_pwmWr_of_inWriteArm accept write
      refine ⟨fun _ => ⟨State.popEvent_inWriteArm.mp write, fun range => ?_⟩, fun down => by simp [up] at down⟩
      exact dutiesProject_sequencerEdge accept write (State.popEvent_speedsInRange.mpr range)
    · obtain ⟨dutyA, dutyB, down⟩ := sequencerEdge_outputs_of_not_inWriteArm (ha.imp_right And.right) write
      exact ⟨fun up => by simp [down] at up,
        fun _ => .inl ⟨dutyA.trans s.popEvent_dutyA, dutyB.trans s.popEvent_dutyB⟩⟩

/-- Settles O48: an event comes from a write arm, and the invariant has the strobe down in every write arm. -/
theorem eventsAreTwoEdgesApart : Obligations.EventsAreTwoEdgesApart := by
  intro s t h strobe ht edge
  by_contra up
  obtain ⟨write, -⟩ := (eventsComeFromWriteArms s t ht edge).1 (Bool.of_not_eq_false up)
  have down : s.pwmWr = false := h.writeArmsUnstrobed (write.imp_right (.imp_right .inl))
  simp [strobe] at down

end Sys2Proof.Machine
end

section
/-! The fault's statements (R200 to R203): what its entry writes, that it makes no further PWM update event, that a dead block
ignores its inputs, and that only the backend raises it. -/

namespace Sys2Proof.Machine

variable {s t : State} {inp : Inputs} {accept : State → State}

/-! ### The edges of a fault -/

/-- R100's second branch. -/
theorem clockEdge_raises (rst : inp.rst = false) (err : inp.pwmErr = true) (alive : s.state ≠ .fault) :
    clockEdge inp s = .next s.raiseFault := by
  have taken : (inp.pwmErr && decide (s.state ≠ .fault)) = true := by simp [err, alive]
  rw [clockEdge, if_neg (by simp [rst]), if_pos taken]

/-- The entry edge, whatever arm or acceptance was due at it (R202). -/
theorem step_raises (he : s.nextEvent = .edge inp) (rst : inp.rst = false) (err : inp.pwmErr = true)
    (alive : s.state ≠ .fault) : step s = .next s.popEvent.raiseFault :=
  (step_of_nextEvent he).trans (clockEdge_raises rst err (s.popEvent_state ▸ alive))

/-- An edge of a dead block is the strobe's default, whatever `pwm_err` and the command port carry (R203). -/
theorem clockEdge_fault (dead : s.state = .fault) (rst : inp.rst = false) : clockEdge inp s = .next s.clearStrobe := by
  rcases clockEdge_cases inp s with ⟨reset, -⟩ | ⟨-, -, alive, -⟩ | ⟨-, -, accept, -, arm⟩
  · simp [rst] at reset
  · exact absurd dead alive
  · rw [arm, sequencerEdge_fault accept dead]

/-- The ways out of `FAULT`: an accessor's answer, a further `pwm_err` and the arm all keep it (R203). -/
theorem reset_of_leaves_fault (dead : s.state = .fault) (ht : step s = .next t) (leaves : t.state ≠ .fault) :
    ∃ inp, s.nextEvent = .edge inp ∧ inp.rst = true := by
  have popped : s.popEvent.state = .fault := s.popEvent_state.trans dead
  rcases step_cases ht with ⟨r, -, rfl⟩ | ⟨inp, he, rst, -⟩ | ⟨inp, -, -, -, alive, -⟩ | ⟨inp, -, -, -, accept, -, rfl⟩
  · exact absurd popped leaves
  · exact ⟨inp, he, rst⟩
  · exact absurd dead alive
  · rw [sequencerEdge_fault accept popped] at leaves
    exact absurd popped leaves

/-! ### No event of a dead block -/

/-- A dead block with the strobe down makes no event, since no step without reset raises the strobe (R202). -/
theorem writeTrace_of_fault (k n : Nat) (dead : s.state = .fault) (strobe : s.pwmWr = false)
    (noReset : s.noResetFor k = true) : writeTrace k n s = [] := by
  induction k generalizing s n with
  | zero => rfl
  | succ k ih =>
    obtain ⟨t, ht, held, later⟩ := exists_step_of_fault dead noReset
    have down : t.pwmWr = false := held.strobe strobe
    have rest (m : Nat) : writeTrace k m t = [] := ih m (held.state.trans dead) down later
    simp [writeTrace, ht, eventsAfter, down, rest]

/-- Settles O19: the entry edge is one record update, which leaves the block dead with the strobe down. -/
theorem faultEntryKeepsRegisters : Obligations.FaultEntryKeepsRegisters := fun _ _ he rst err alive =>
  ⟨_, step_raises he rst err alive, rfl, fun k n => writeTrace_of_fault k n rfl rfl⟩

/-- Settles O20: the edge of a dead block, its status outputs, and the ways out. -/
theorem faultArmDoesNothing : Obligations.FaultArmDoesNothing := by
  refine ⟨fun s inp dead he rst => ?edge, fun s dead => ?outputs, fun s t => reset_of_leaves_fault⟩
  case edge => exact (step_of_nextEvent he).trans (clockEdge_fault (s.popEvent_state.trans dead) rst)
  case outputs =>
    obtain ⟨notReady, notBusy⟩ := State.neither_ready_nor_busy_iff.mpr dead
    exact ⟨notReady, notBusy, fun inp => by rw [State.handshake, notReady, Bool.and_false]⟩

/-! ### Only the backend raises a fault -/

/-- No arm and no acceptance action goes to `FAULT` (R201). -/
theorem sequencerEdge_state_ne_fault
    (ha : accept = acceptNone ∨ (∃ req, accept = acceptSetTarget req) ∨ accept = acceptStop) (alive : s.state ≠ .fault) :
    (s.sequencerEdge accept).state ≠ .fault := by
  cases hs : s.state with
  | idle =>
    rw [sequencerEdge_idle accept hs]
    rcases ha with rfl | ⟨req, rfl⟩ | rfl
    · exact alive
    · rw [acceptSetTarget_state]
      split <;> decide
    · simp [acceptStop]
  | revStep => simp [sequencerEdge_revStep accept hs, armRevStep, State.rampWrite]
  | revWait =>
    rw [sequencerEdge_revWait accept hs, armRevWait]
    split_ifs <;> simp [hs]
  | stop => simp [sequencerEdge_stop accept hs, armStop]
  | brakeWait =>
    rw [sequencerEdge_brakeWait accept hs, armBrakeWait]
    split_ifs <;> simp [hs]
  | rampStep =>
    rw [sequencerEdge_rampStep accept hs, armRampStep]
    split_ifs <;> simp [State.rampWrite]
  | rampWait =>
    rw [sequencerEdge_rampWait accept hs, armRampWait]
    split_ifs <;> simp [hs]
  | fault => exact absurd hs alive

/-- A step into `FAULT` is the entry edge (R201). -/
theorem pwmErr_of_enters_fault (alive : s.state ≠ .fault) (ht : step s = .next t) (dead : t.state = .fault) :
    ∃ inp, s.nextEvent = .edge inp ∧ inp.rst = false ∧ inp.pwmErr = true := by
  have popped : s.popEvent.state ≠ .fault := s.popEvent_state ▸ alive
  rcases step_cases ht with ⟨r, -, rfl⟩ | ⟨inp, -, -, rfl⟩ | ⟨inp, he, rst, err, -, -⟩ | ⟨inp, -, -, -, accept, ha, rfl⟩
  · exact absurd dead popped
  · cases dead
  · exact ⟨inp, he, rst, err⟩
  · exact absurd dead (sequencerEdge_state_ne_fault (ha.imp_right And.right) popped)

/-- An accessor only answers the host (R84). -/
theorem exec_accessor {i : Instr} (hi : i.isCommand = false) (s : State) : ∃ r, exec i s = .next (s.giveHost r) := by
  cases i with
  | currentSpeed => exact ⟨_, rfl⟩
  | currentDirection => exact ⟨_, rfl⟩
  | nop => cases hi
  | setTarget sp => cases hi
  | stop => cases hi
  | rsvd => cases hi

/-- Settles O22: a command is a sequencer edge, which neither enters `FAULT` nor moves the fault bit; an accessor writes no
register. -/
theorem onlyBackendRaisesFault : Obligations.OnlyBackendRaisesFault := by
  refine ⟨fun s t => pwmErr_of_enters_fault, fun i s t alive ht => ?_⟩
  cases hi : i.isCommand with
  | true =>
    obtain ⟨accept, ha, exec_eq⟩ := exec_command hi
    obtain rfl : s.sequencerEdge accept = t := Host.Outcome.next.inj (exec_eq s ▸ ht)
    exact ⟨sequencerEdge_state_ne_fault ha alive, (edgeFrame_sequencerEdge ha).fault⟩
  | false =>
    obtain ⟨r, exec_eq⟩ := exec_accessor hi s
    obtain rfl : s.giveHost r = t := Host.Outcome.next.inj (exec_eq ▸ ht)
    exact ⟨alive, rfl⟩

end Sys2Proof.Machine
end

section
/-! The reset's statements (R230, R231): what an edge with `rst = 1` loads, and the sequence that follows it. -/

namespace Sys2Proof.Machine

variable {s : State} {inp : Inputs}

/-! ### The reset edge -/

/-- R100's first branch, before any look at the state, `pwm_err` or the command port. -/
theorem clockEdge_reset (rst : inp.rst = true) (s : State) : clockEdge inp s = .next s.resetRegs := by
  rw [clockEdge, if_pos rst]

theorem step_reset (he : s.nextEvent = .edge inp) (rst : inp.rst = true) : step s = .next s.popEvent.resetRegs :=
  (step_of_nextEvent he).trans (clockEdge_reset rst _)

/-- Settles O17: the reset edge is one record update, and no other event leaves `FAULT`. -/
theorem resetLoadsEveryRegister : Obligations.ResetLoadsEveryRegister :=
  ⟨fun _ _ => step_reset, fun _ _ => reset_of_leaves_fault⟩

/-! ### The reset sequence -/

/-- A busy block is not ready (R101, R186). -/
theorem State.cmdReady_of_busy (busy : s.busy = true) : s.cmdReady = false := by
  rw [← Bool.not_eq_true, State.cmdReady_iff]
  exact (State.busy_iff.mp busy).1

/-- Settles O41: a block at reset stands in the `STOP` arm with `resume` down, so it runs one stop and goes to `IDLE`. -/
theorem resetSequenceRuns : Obligations.ResetSequenceRuns := by
  intro s reset quiet
  have stop : s.state = .stop := congrArg State.state reset
  have resume : s.resume = false := congrArg State.resume reset
  obtain ⟨events, draws, run⟩ := exists_busyRun_stop (n := 0) stop quiet
  have idle : ((armStop s).waited events draws).state = .idle := if_neg (ne_true_of_eq_false resume)
  refine ⟨fun j before => ?busy, ⟨_, run.run, idle, State.cmdReady_iff.mpr idle, rfl⟩, ?trace⟩
  case busy =>
    obtain ⟨t, reached, busy⟩ := run.busy j before
    exact ⟨t, reached, busy, State.cmdReady_of_busy busy⟩
  case trace => exact run.trace 0

end Sys2Proof.Machine
end
